-- ==== Sys2Proof/Word.lean ====
section
/-! DEFINITION. The widths the spec computes with (00_scope.md R9, R10): bytes, halfwords, command
words, payloads, and the 26-byte frame. -/
namespace Sys2Proof

/-- One byte of a frame or an 8-bit field. -/
abbrev Byte := BitVec 8

/-- A `u16`: a slot value, a code, a tag, a CRC register. -/
abbrev Half := BitVec 16

/-- A 32-bit word: a command word, an event word, a counter. -/
abbrev Word := BitVec 32

/-- The 64-bit payload of the formats R and SW (30_encoding.md R101). -/
abbrev Payload := BitVec 64

/-- A frame is `FRAME_LEN` = 26 bytes (00_scope.md R8, R10), inbound or outbound. -/
abbrev Frame := Vector Byte 26

/-- A slot index 0..18 into the service-register table (10_state.md R44, `N_SLOTS` = 19). -/
abbrev SlotIdx := Fin 19

/-- 26 zero bytes. -/
abbrev Frame.zero : Frame := Vector.replicate 26 0

end Sys2Proof
end

