-- ==== Sys2Proof/Config.lean ====
section
/-! DEFINITION. The implementation parameters of 00_scope.md R8. Every rule reads them through a value
of `Params`, which the state carries unchanged (R54; notes/assumptions/3.md); the parameters the spec
marks OPEN are constants without a body, so no proof can lean on a value of them. -/
namespace Sys2Proof

/-- `ADMIT_ORDER` (R8, 43_service_queue.md R223): which queued task goes in flight first. -/
inductive AdmitOrder where
  | fifo
  | lifo
deriving DecidableEq, Repr, Inhabited

/-- The parameters of an instance (R8). The bounds the spec puts on them hold by construction:
`Q_DEPTH ≥ 22`, `1 ≤ PERIOD_TICKS < 2^32` and `1 ≤ INIT_BAUD_REG ≤ 65535`. -/
structure Params where
  /-- `Q_DEPTH - 22`: R8 requires `Q_DEPTH ≥ 22`. -/
  qDepthOver22 : Nat
  /-- `ADMIT_ORDER`. -/
  admitOrder : AdmitOrder
  /-- `DELAY_COUNTS_INFLIGHT`. -/
  delayCountsInflight : Bool
  /-- `PERIOD_TICKS - 1`: R8 requires an integer ≥ 1 below 2^32. -/
  periodPred : Fin 4294967295
  /-- `DATABITS8_CODE`. -/
  databits8Code : BitVec 3
  /-- `INIT_BAUD_REG - 1`: the setting it initialises has the legal values 1..65535 (10_state.md R38,
  notes/assumptions/12.md). -/
  initBaudPred : Fin 65535
  /-- `TICK_SECONDS`: used by no rule but the watchdog obligation (R343). -/
  tickSeconds : Rat
deriving DecidableEq, Repr

/-- `Q_DEPTH`, the queue's capacity in tasks. -/
def Params.qDepth (p : Params) : Nat := p.qDepthOver22 + 22

/-- `PERIOD_TICKS`, as the 32-bit value the delay counter is loaded with. -/
def Params.periodTicks (p : Params) : Word := BitVec.ofNat 32 (p.periodPred.val + 1)

/-- `INIT_BAUD_REG`, the reset value of the baud setting, in units of 100 baud. -/
def Params.initBaudReg (p : Params) : Half := BitVec.ofNat 16 (p.initBaudPred.val + 1)

namespace Config

/-- `PERIOD_TICKS - 1`, OPEN in R8 (decision D15). -/
opaque periodPred : Fin 4294967295

/-- `DATABITS8_CODE`, OPEN in R8 (decision D17). -/
opaque databits8Code : BitVec 3

/-- `INIT_BAUD_REG - 1`, OPEN in R8 (decision D31). -/
opaque initBaudPred : Fin 65535

/-- `TICK_SECONDS`, OPEN in R8 (decision D15). -/
opaque tickSeconds : Rat

/-- The parameters an instance is constructed with: the spec's defaults for the ones it decided
(R8: `Q_DEPTH` 32, `ADMIT_ORDER` FIFO, `DELAY_COUNTS_INFLIGHT` false), no known value for the OPEN ones. -/
def params : Params where
  qDepthOver22 := 10
  admitOrder := .fifo
  delayCountsInflight := false
  periodPred := periodPred
  databits8Code := databits8Code
  initBaudPred := initBaudPred
  tickSeconds := tickSeconds

end Config
end Sys2Proof
end

