-- ==== Sys2Proof/Syntax.lean ====
section
/-! DEFINITION. The instructions of spec/opcode_table.json, one constructor per row, and the raw input
messages the ports deliver (30_encoding.md R100-R107). A constructor keeps every bit of its encoding
that the block looks at: the reserved fields too, since a reserved bit that is 1 has an effect (R103). -/
namespace Sys2Proof

/-- The 12 host commands, the 3 environment inputs and the internal step (R100, R105, R107). -/
inductive Instr where
  /-- OPEN, 0x01, format N. -/
  | openCmd (rsv : BitVec 24)
  /-- CLOSE, 0x02, format N. -/
  | closeCmd (rsv : BitVec 24)
  /-- SET_LED, 0x10, format L: `rsv = word[23:16]`. -/
  | setLed (rsv : BitVec 8) (ctrl : Byte) (val : Byte)
  /-- SET_DOUT, 0x11, format D: `rsv = word[23:4]`. -/
  | setDout (rsv : BitVec 20) (mask : BitVec 4)
  /-- SET_PWM_DUTY, 0x12, format R: `rsv = word[23:4]`, the payload's `num` (signed) and `den`. -/
  | setPwmDuty (rsv : BitVec 20) (k : BitVec 4) (num : Word) (den : Word)
  /-- SET_PWM_FREQ, 0x13, format R. -/
  | setPwmFreq (rsv : BitVec 20) (g : BitVec 4) (num : Word) (den : Word)
  /-- SET_AOUT, 0x14, format R. -/
  | setAout (rsv : BitVec 20) (c : BitVec 4) (num : Word) (den : Word)
  /-- SET_RS485_BAUD, 0x20, format B (no reserved bits). -/
  | setRs485Baud (baud : BitVec 24)
  /-- SET_RS485_MODE, 0x21, format M: `rsv = word[23:4]`. -/
  | setRs485Mode (rsv : BitVec 20) (stop : BitVec 2) (parity : BitVec 2)
  /-- SET_BOARD_CFG, 0x22, format C: `rsv = word[23:3]`. -/
  | setBoardCfg (rsv : BitVec 21) (ai2 : BitVec 1) (ai1 : BitVec 1) (term : BitVec 1)
  /-- SVC_READ, 0x30, format S. -/
  | svcRead (slot : BitVec 8) (tag : Half)
  /-- SVC_WRITE, 0x31, format SW: `prsv = payload[63:16]`, `value = payload[15:0]`. -/
  | svcWrite (slot : BitVec 8) (tag : Half) (prsv : BitVec 48) (value : Half)
  /-- TICK, 0x80 on the tick port; `word[23:0]` is ignored. -/
  | tick
  /-- XFER_DONE, 0x81 on the transport port, with the 26 inbound bytes. -/
  | xferDone (rx : Frame)
  /-- XFER_FAIL, 0x82 on the transport port; `word[23:8]` is ignored. -/
  | xferFail (reason : Byte)
  /-- BUILD_STEP, the internal step; it has no word. -/
  | buildStep
deriving DecidableEq, Repr

/-- The ports that deliver words (R107: each environment input has its own). -/
inductive Port where
  | host
  | tick
  | transport
deriving DecidableEq, Repr

/-- One raw input, as a port presents it, or the environment's choice that the internal step runs now
(R14, R100). A word that takes no payload or no bytes leaves the ones beside it unread
(notes/assumptions/7.md). -/
inductive Msg where
  /-- A word on the host command port, and the 64-bit payload beside it (R101). -/
  | host (word : Word) (payload : Payload)
  /-- A word on the tick source's port. -/
  | tick (word : Word)
  /-- A word on the transport's port, and the 26 bytes beside it. -/
  | transport (word : Word) (rx : Frame)
  /-- The internal step is taken before the next input (R14). -/
  | internal
deriving DecidableEq, Repr

end Sys2Proof
end

