-- ==== Sys2Proof/Machine/State.lean ====
section
/-! DEFINITION. The state of the block (10_state.md R30-R54), its output events (30_encoding.md R108),
the reasons a step can stop, and the reset state (70_reset_and_hazards.md R340, R341). Plain data. -/
namespace Sys2Proof.Machine

/-- `s.fsm` (R32); the block's sequencing state (R31). -/
inductive Fsm where
  /-- Not opened; no cycle runs. -/
  | idle
  /-- The internal BUILD_STEP is enabled. -/
  | build
  /-- One exchange is outstanding at the transport. -/
  | xfer
  /-- The inter-cycle delay is counting TICKs. -/
  | wait
  /-- Terminal until reset. -/
  | closed
deriving DecidableEq, Repr

/-- Who created a task (R46, R120). -/
inductive Origin where
  | host
  | opened
  | cfg
deriving DecidableEq, Repr

/-- A queued or in-flight service access (R46). -/
structure Task where
  slot : SlotIdx
  origin : Origin
  tag : Half
deriving DecidableEq, Repr

/-- Every field 0: slot 0, origin HOST, tag 0. What `s.inflight` holds at reset, where the spec names no
value (notes/assumptions/8.md). -/
def Task.zero : Task where
  slot := 0
  origin := .host
  tag := 0

/-- The published input snapshot (R49). A counter is the two's-complement pattern of its `i32`. -/
structure Snapshot where
  din : BitVec 4
  cnt : Vector Word 2
  aiRaw : Vector Half 2
  aiMode : Vector (BitVec 1) 2
  status : Byte
deriving DecidableEq, Repr

/-- Every field 0 (R49). -/
def Snapshot.zero : Snapshot where
  din := 0
  cnt := #v[0, 0]
  aiRaw := #v[0, 0]
  aiMode := #v[0, 0]
  status := 0

/-- The causes of CMD_ERROR (R109). -/
inductive Cause where
  | unknownOpcode
  | reservedNonzero
  | indexRange
  | domain
  | badState
  | queueFull
  | closed
deriving DecidableEq, Repr

/-- The side of RANGE_WARNING (R108). -/
inductive Side where
  /-- The value was below 0. -/
  | low
  /-- The value was at or above 10. -/
  | high
deriving DecidableEq, Repr

/-- The reason of FRAME_ERROR (R108): the CRC check is the only frame error. -/
inductive FrameReason where
  | crcMismatch
deriving DecidableEq, Repr

/-- The output events (R108). Their bits are `Event.word` and `Event.tail` of Machine/Events.lean. -/
inductive Event where
  | dataReady (snap : Snapshot)
  | frameError (reason : FrameReason) (rx : Frame)
  | transportError (reason : Byte)
  | rangeWarning (channel : BitVec 1) (side : Side)
  | svcResolve (task : Task) (value : Half)
  | svcReject (task : Task) (value : Half)
  | openDone (rejected : Bool)
  | xferReq (tx : Frame)
  | xferRelease
  | cmdError (opcode : Byte) (cause : Cause)
deriving DecidableEq, Repr

/-- The whole state of the machine. -/
structure State where
  /-- `s.fsm` (R32). -/
  fsm : Fsm
  /-- `s.dly` (R33): the TICKs still to wait. -/
  dly : Word
  /-- `s.led_ctrl` (R34). -/
  ledCtrl : Byte
  /-- `s.led_val` (R34). -/
  ledVal : Byte
  /-- `s.dout` (R34). -/
  dout : BitVec 4
  /-- `s.duty_code[0..3]` (R35). -/
  dutyCode : Vector Half 4
  /-- `s.pwm_div[0..1]` (R36). -/
  pwmDiv : Vector Half 2
  /-- `s.dac_code[0..1]` (R37). -/
  dacCode : Vector Half 2
  /-- `s.baud_reg` (R38). -/
  baudReg : Half
  /-- `s.parity` (R39). -/
  parity : BitVec 2
  /-- `s.stop` (R39). -/
  stop : BitVec 2
  /-- `s.term` (R40). -/
  term : BitVec 1
  /-- `s.ai_mode[0..1]` (R40): 0 voltage, 1 current. -/
  aiMode : Vector (BitVec 1) 2
  /-- `slot[0..18].value` (R43). -/
  slotVal : Vector Half 19
  /-- `s.queue` (R45), the oldest task first; `s.qlen` is its length. -/
  queue : List Task
  /-- `s.inflight_v` (R47). -/
  inflightV : Bool
  /-- `s.inflight` (R47): the in-flight task when `s.inflight_v = 1`; else it keeps what it held, which no
  rule reads (notes/assumptions/8.md). -/
  inflight : Task
  /-- `s.open_rem` (R48). -/
  openRem : BitVec 5
  /-- `s.open_rej` (R48). -/
  openRej : Bool
  /-- `s.snap` (R49). -/
  snap : Snapshot
  /-- `s.snap_v` (R50). -/
  snapV : Bool
  /-- `s.tx` (R51). -/
  tx : Frame
  /-- The parameters of the instance (00_scope.md R8); no step writes them (R54; the model's own field,
  notes/assumptions/3.md). -/
  par : Params
  /-- The inputs still to be delivered, next one first (R14, R92; the model's own field,
  notes/assumptions/1.md). -/
  inbox : List Msg
  /-- The output events emitted so far, oldest first (R13, R95; the model's own field,
  notes/assumptions/2.md). -/
  outs : List Event
deriving DecidableEq, Repr

/-- Why the machine stops. -/
inductive Fault where
  /-- Raised by BUILD_STEP when `s.fsm ≠ BUILD`, where the spec says it is not enabled (44_scheduler.md
  R250, R253). Safe: the block has no such step (notes/assumptions/4.md). -/
  | buildStepNotEnabled
deriving DecidableEq, Repr

/-- Why a step has no meaning. -/
inductive Refusal where
  /-- Raised by `exec` for an instruction without a meaning. Safe: nothing is claimed of it. -/
  | notModelled (mnemonic : String)
  /-- Raised by `step` for a word on an environment port that is none of the event words of
  30_encoding.md R107. Safe: the spec has no such input (notes/assumptions/5.md). -/
  | notAnInput (port : Port) (opcode : Byte)
deriving DecidableEq, Repr

/-- The reset state `s0` (70_reset_and_hazards.md R340, R341). -/
def State.reset : State where
  fsm := .idle
  dly := 0
  ledCtrl := 0
  ledVal := 0
  dout := 0
  dutyCode := #v[0, 0, 0, 0]
  pwmDiv := #v[0, 0]
  dacCode := #v[0, 0]
  baudReg := Config.params.initBaudReg
  parity := 0
  stop := 0
  term := 0
  aiMode := #v[0, 0]
  slotVal := Vector.replicate 19 0xFFFF
  queue := []
  inflightV := false
  inflight := Task.zero
  openRem := 0
  openRej := false
  snap := Snapshot.zero
  snapV := false
  tx := Frame.zero
  par := Config.params
  inbox := []
  outs := []

end Sys2Proof.Machine
end

