-- ==== Sys2Proof/Machine/Conversion.lean ====
section
/-! DEFINITION. The conversion unit (41_conversion.md R170-R174): exact rational arithmetic with an
explicit floor (00_scope.md R11). -/
namespace Sys2Proof.Machine

/-- `CLOCK_BASE` in Hz (R170). -/
def clockBase : Rat := 32000000

/-- One tier of R170: `tier + (floor(q) & 0xFFFC)`. The quotient is below 2^16 in every tier. -/
def divisorOf (tier : Nat) (q : Rat) : Half :=
  BitVec.ofNat 16 (tier + (q.floor.toNat &&& 0xFFFC))

/-- CONV_FREQ2DIV (R170): the prescaler tier in bits 1:0, the counter reload value above (R171). -/
def convFreq2Div (f : Rat) : Half :=
  if f < 1 then 0
  else if f < 10 then divisorOf 3 (clockBase / 512 / f)
  else if f < 100 then divisorOf 2 (clockBase / 64 / f)
  else if f < 1000 then divisorOf 1 (clockBase / 8 / f)
  else if f < 100000 then divisorOf 0 (clockBase / 1 / f)
  else 0

/-- `div[1:0]`, the prescaler tier of a divisor (R171). -/
def divTier (d : Half) : BitVec 2 := d.extractLsb' 0 2

/-- `div & 0xFFFC`, the counter reload value of a divisor (R171). -/
def divReload (d : Half) : Half := d &&& 0xFFFC

/-- CONV_DUTY (R172): `floor(65535 × d)`, for `0 ≤ d ≤ 1`. -/
def convDuty (d : Rat) : Half := BitVec.ofNat 16 (65535 * d).floor.toNat

/-- CONV_DAC (R173): the code, and the side of its range warning if it raises one. -/
def convDac (v : Rat) : Half × Option Side :=
  if 10 ≤ v then (4095, some .high)
  else if v < 0 then (0, some .low)
  else (BitVec.ofNat 16 (v * 4095 / 10).floor.toNat, none)

/-- AIN_SCALE (R174): volts in voltage mode, milliamps in current mode; not clamped. -/
def ainScale (raw : Half) (mode : BitVec 1) : Rat :=
  (raw.toNat : Rat) * (if mode = 1 then 50 else 10) / 4095

/-- The scaled reading of analog input `c` of a snapshot (10_state.md R49). -/
def Snapshot.scaled (n : Snapshot) (c : Fin 2) : Rat :=
  ainScale (n.aiRaw.get c) (n.aiMode.get c)

/-- Counter `c` of a snapshot as a signed number (10_state.md R49, 42_frame_codec.md R205). -/
def Snapshot.counter (n : Snapshot) (c : Fin 2) : Int := (n.cnt.get c).toInt

/-- A slot value read as signed (10_state.md R43, 00_scope.md R9 `signed16`). -/
def signed16 (w : Half) : Int := w.toInt

end Sys2Proof.Machine
end

