-- ==== Sys2Proof/Machine/SlotTable.lean ====
section
/-! DEFINITION. The service-register table: its constant addresses (10_state.md R42, R44) and the access
to its values (R43, 20_memory.md R80). -/
namespace Sys2Proof.Machine

/-- `SLOT_ADDR[0..18]` (R44). -/
def slotAddrs : Vector Half 19 := #v[
  0x0000, 0x0001, 0x0002, 0x0003, 0x0004, 0x0005, 0x0006, 0x0007, 0x0008,
  0x0014, 0x0015, 0x0018, 0x0019,
  0x100F, 0x1010, 0x1011, 0x100A,
  0x1024, 0x1025]

/-- `slot[i].addr`. -/
def slotAddr (i : SlotIdx) : Half := slotAddrs.get i

/-- `slot[i].value`. -/
def State.slotValue (s : State) (i : SlotIdx) : Half := s.slotVal.get i

/-- `slot[i].value <- v`. -/
def State.setSlot (s : State) (i : SlotIdx) (v : Half) : State :=
  { s with slotVal := s.slotVal.set i.val v i.isLt }

/-- The slots the block derives (R44): RS-485 baud, RS-485 mode, board config. -/
def slotBaud : SlotIdx := 14
def slotMode : SlotIdx := 15
def slotBoard : SlotIdx := 16

end Sys2Proof.Machine
end

