-- ==== Sys2Proof/Machine/Ops.lean ====
section
/-! DEFINITION. The named operations over frames, events, the queue and the in-flight task that the
meanings share (00_scope.md R10, R13; 43_service_queue.md). -/
namespace Sys2Proof.Machine

/-! ### Frames: the spec's MemRead and MemWrite (R10, R81) -/

/-- `rd8(f, i)`. -/
def rd8 (f : Frame) (i : Nat) (h : i < 26 := by decide) : Byte := f[i]

/-- `rd16le(f, i)`: the byte at the lower offset is the less significant. -/
def rd16le (f : Frame) (i : Nat) (h : i + 1 < 26 := by decide) : Half := f[i + 1] ++ f[i]

/-- `rd32le(f, i)`. -/
def rd32le (f : Frame) (i : Nat) (h : i + 3 < 26 := by decide) : Word :=
  f[i + 3] ++ f[i + 2] ++ f[i + 1] ++ f[i]

/-- `f[i] <- v`. -/
def wr8 (f : Frame) (i : Nat) (v : Byte) (h : i < 26 := by decide) : Frame := f.set i v

/-- `wr16le(f, i, v)`. -/
def wr16le (f : Frame) (i : Nat) (v : Half) (h : i + 1 < 26 := by decide) : Frame :=
  (f.set i (v.extractLsb' 0 8)).set (i + 1) (v.extractLsb' 8 8)

/-! ### Events and errors (R13) -/

/-- `emit e`: append to the step's output. -/
def State.emit (s : State) (e : Event) : State := { s with outs := s.outs ++ [e] }

/-- TAKING AN ERROR (R13 `raise`, 60_exceptions.md R300, R309): the error's event is emitted and the step
goes on as its rule says. No state is saved, no mode or mask changes, control goes nowhere; there is
accordingly no return (R310). -/
def raise (e : Event) (s : State) : State := s.emit e

/-- `reject cause` (R13, 60_exceptions.md R307): no state change and the single output CMD_ERROR. -/
def reject (op : Byte) (cause : Cause) (s : State) : State := raise (.cmdError op cause) s

/-! ### The queue (43_service_queue.md R221, R222) -/

/-- `s.qlen` (10_state.md R45). -/
def State.qlen (s : State) : Nat := s.queue.length

/-- ENQUEUE (R221): none when the queue is full, else the task at the tail. -/
def enqueue (t : Task) (s : State) : Option State :=
  if s.qlen = s.par.qDepth then none else some { s with queue := s.queue ++ [t] }

/-- ENQUEUE of several tasks in order, a full queue keeping what it holds. -/
def enqueueAll (ts : List Task) (s : State) : State :=
  ts.foldl (fun s t => (enqueue t s).getD s) s

/-- The task ADMIT takes and the queue it leaves: the oldest or the newest (R222). -/
def takeTask (order : AdmitOrder) (q : List Task) : Option (Task × List Task) :=
  match order with
  | .fifo => match q with
    | [] => none
    | t :: rest => some (t, rest)
  | .lifo => match q.getLast? with
    | none => none
    | some t => some (t, q.dropLast)

/-- The task in flight: what `s.inflight` holds while `s.inflight_v = 1` (10_state.md R47). -/
def State.inflightTask (s : State) : Option Task := if s.inflightV then some s.inflight else none

/-- ADMIT (R222): nothing while a task is in flight. -/
def admitNext (s : State) : State :=
  if s.inflightV then s
  else match takeTask s.par.admitOrder s.queue with
    | none => s
    | some (t, rest) => { s with inflightV := true, inflight := t, queue := rest }

/-! ### The configuration refresh (10_state.md R41, 43_service_queue.md R228) -/

/-- BAUD_WORD, for slot 14. -/
def baudWord (s : State) : Half := s.baudReg

/-- MODE_WORD, for slot 15: bits 2:0 data bits, 4:3 parity, 6:5 stop, 15:7 zero. -/
def modeWord (s : State) : Half := (s.stop ++ s.parity ++ s.par.databits8Code).setWidth 16

/-- BOARD_WORD, for slot 16: bit 0 termination, bits 1 and 2 the current mode of inputs 1 and 2. -/
def boardWord (s : State) : Half :=
  (s.aiMode.get 1 ++ s.aiMode.get 0 ++ s.term).setWidth 16

/-- One turn of CFG_REFRESH: a slot whose value differs from its derived word takes it and is queued,
unless the queue is full. -/
def refreshSlot (i : SlotIdx) (w : Half) (s : State) : State :=
  if s.slotValue i = w then s
  else match enqueue { slot := i, origin := .cfg, tag := BitVec.ofNat 16 i.val } s with
    | none => s
    | some s' => s'.setSlot i w

/-- CFG_REFRESH (R228): slots 14, 15, 16 in this order. -/
def cfgRefresh (s : State) : State :=
  refreshSlot slotBoard (boardWord s) (refreshSlot slotMode (modeWord s) (refreshSlot slotBaud (baudWord s) s))

/-! ### Completion (43_service_queue.md R224-R227) -/

/-- OPEN_ACCOUNT (R227). -/
def openAccount (err : Bool) (s : State) : State :=
  let s := { s with openRej := s.openRej || err, openRem := s.openRem - 1 }
  if s.openRem = 0 then s.emit (.openDone s.openRej) else s

/-- COMPLETE_MATCH (R225) for the in-flight task `t`: the valid bit is cleared, `s.inflight` itself is not
written; an echo with the error bit is the error
DeviceReportedError (60_exceptions.md R303). -/
def completeMatch (t : Task) (value : Half) (err : Bool) (s : State) : State :=
  let s := { s.setSlot t.slot value with inflightV := false }
  let s := if err then raise (.svcReject t value) s else s.emit (.svcResolve t value)
  match t.origin with
  | .opened => openAccount err s
  | .host => s
  | .cfg => s

/-- COMPLETE (R224): an echo that does not match changes nothing (R226). -/
def complete (addr : BitVec 13) (value : Half) (err : Bool) (s : State) : State :=
  match s.inflightTask with
  | none => s
  | some t => if addr.setWidth 16 = slotAddr t.slot then completeMatch t value err s else s

/-! ### The cadence (44_scheduler.md R256) -/

/-- SCHEDULE: the next cycle at once while tasks are pending, else after `PERIOD_TICKS` TICKs. -/
def schedule (s : State) : State :=
  let pending := s.qlen + (if s.par.delayCountsInflight && s.inflightV then 1 else 0)
  if pending > 0 then { s with fsm := .build }
  else { s with dly := s.par.periodTicks, fsm := .wait }

end Sys2Proof.Machine
end

