-- ==== Sys2Proof/Machine/Operands.lean ====
section
/-! DEFINITION. The operand forms of the host commands and the checks that guard them
(30_encoding.md R102-R104, 45_host_commands.md R280). -/
namespace Sys2Proof.Machine

/-- The exact rational `num / den` of the formats R (R104): `num` signed, `den` unsigned. Equal quotients
give the same value. -/
def ratOperand (num den : Word) : Rat := mkRat num.toInt den.toNat

/-- The slot an 8-bit slot field names once the check `slot ≤ 18` has passed (R102). -/
def slotOperand (slot : BitVec 8) : SlotIdx := Fin.ofNat 19 slot.toNat

/-- One check of a command: the condition that refuses it, and the cause it reports. -/
abbrev Check := Bool × Cause

/-- The cause of the first check that fails (R280). -/
def firstCause : List Check → Option Cause
  | [] => none
  | (fails, cause) :: rest => if fails then some cause else firstCause rest

/-- A HOSTCMD step (R280): it runs its checks in order; the first that fails refuses the command with
one CMD_ERROR and no other change; when all pass the command's pseudocode runs. -/
def command (op : Byte) (checks : List Check) (act : State → State) (s : State) : State :=
  match firstCause checks with
  | some cause => reject op cause s
  | none => act s

/-- Check 2: a reserved field holds a bit that is 1 (R103). -/
def reservedCheck {n : Nat} (rsv : BitVec n) : Check := (rsv != 0, .reservedNonzero)

/-- Check 3: an index field above its largest legal value. -/
def indexCheck {n : Nat} (last : Nat) (i : BitVec n) : Check := (decide (last < i.toNat), .indexRange)

/-- Check 4 of the formats R: `den = 0` (R104). -/
def denCheck (den : Word) : Check := (den == 0, .domain)

/-- Check 4 of SET_PWM_DUTY: `d < 0 or d > 1` (R283). -/
def dutyCheck (d : Rat) : Check := (decide (d < 0) || decide (1 < d), .domain)

/-- Check 4 of SET_RS485_BAUD (R286). -/
def baudCheck (baud : BitVec 24) : Check :=
  (baud == 0 || baud.toNat % 100 != 0 || decide (65535 < baud.toNat / 100), .domain)

/-- Check 5 of SVC_READ and SVC_WRITE. -/
def closedCheck (s : State) : Check := (s.fsm == .closed, .closed)

/-- Check 6 of SVC_READ and SVC_WRITE: `s.qlen = Q_DEPTH`. -/
def fullCheck (s : State) : Check := (s.qlen == s.par.qDepth, .queueFull)

/-- Check 6 of OPEN: `Q_DEPTH - s.qlen < 19`, read as integers (notes/assumptions/6.md). -/
def openRoomCheck (s : State) : Check := (decide (s.par.qDepth < s.qlen + 19), .queueFull)

/-- The answer to an unassigned opcode on the host port (30_encoding.md R106). -/
def unknownOpcode (op : Byte) (s : State) : State := reject op .unknownOpcode s

end Sys2Proof.Machine
end

