-- ==== Sys2Proof/Machine/HostOutput.lean ====
section
/-! DEFINITION. The SET_* commands of the output registers (45_host_commands.md R281-R285). They have no
state check (R289). -/
namespace Sys2Proof.Machine

/-- SET_LED (R281). -/
def execSetLed (rsv ctrl val : BitVec 8) (s : State) : Host.Outcome State Fault Refusal :=
  .next (command 0x10 [reservedCheck rsv] (fun s => { s with ledCtrl := ctrl, ledVal := val }) s)

/-- SET_DOUT (R282). -/
def execSetDout (rsv : BitVec 20) (mask : BitVec 4) (s : State) : Host.Outcome State Fault Refusal :=
  .next (command 0x11 [reservedCheck rsv] (fun s => { s with dout := mask }) s)

/-- SET_PWM_DUTY (R283). -/
def execSetPwmDuty (rsv : BitVec 20) (k : BitVec 4) (num den : Word) (s : State) :
    Host.Outcome State Fault Refusal :=
  let d := ratOperand num den
  .next (command 0x12 [reservedCheck rsv, indexCheck 3 k, denCheck den, dutyCheck d]
    (fun s => { s with dutyCode := s.dutyCode.setIfInBounds k.toNat (convDuty d) }) s)

/-- SET_PWM_FREQ (R284). -/
def execSetPwmFreq (rsv : BitVec 20) (g : BitVec 4) (num den : Word) (s : State) :
    Host.Outcome State Fault Refusal :=
  let f := ratOperand num den
  .next (command 0x13 [reservedCheck rsv, indexCheck 1 g, denCheck den]
    (fun s => { s with pwmDiv := s.pwmDiv.setIfInBounds g.toNat (convFreq2Div f) }) s)

/-- The write of SET_AOUT: the clamped code is stored, and a value out of range is the error RangeWarning
(60_exceptions.md R306), which does not stop the command. -/
def writeAout (c : BitVec 4) (v : Rat) (s : State) : State :=
  let (code, side) := convDac v
  let s := { s with dacCode := s.dacCode.setIfInBounds c.toNat code }
  match side with
  | none => s
  | some sd => raise (.rangeWarning (c.extractLsb' 0 1) sd) s

/-- SET_AOUT (R285). -/
def execSetAout (rsv : BitVec 20) (c : BitVec 4) (num den : Word) (s : State) :
    Host.Outcome State Fault Refusal :=
  .next (command 0x14 [reservedCheck rsv, indexCheck 1 c, denCheck den]
    (writeAout c (ratOperand num den)) s)

end Sys2Proof.Machine
end

