-- ==== Sys2Proof/Machine/HostSettings.lean ====
section
/-! DEFINITION. The SET_* commands of the settings (45_host_commands.md R286-R288). They have no state
check (R289). -/
namespace Sys2Proof.Machine

/-- SET_RS485_BAUD (R286): the format has no reserved bits. -/
def execSetRs485Baud (baud : BitVec 24) (s : State) : Host.Outcome State Fault Refusal :=
  .next (command 0x20 [baudCheck baud]
    (fun s => { s with baudReg := BitVec.ofNat 16 (baud.toNat / 100) }) s)

/-- SET_RS485_MODE (R287). -/
def execSetRs485Mode (rsv : BitVec 20) (stop parity : BitVec 2) (s : State) :
    Host.Outcome State Fault Refusal :=
  .next (command 0x21 [reservedCheck rsv] (fun s => { s with parity := parity, stop := stop }) s)

/-- SET_BOARD_CFG (R288): analog input 1 is `ai_mode[0]`, input 2 is `ai_mode[1]`. -/
def execSetBoardCfg (rsv : BitVec 21) (ai2 ai1 term : BitVec 1) (s : State) :
    Host.Outcome State Fault Refusal :=
  .next (command 0x22 [reservedCheck rsv] (fun s => { s with term := term, aiMode := #v[ai1, ai2] }) s)

end Sys2Proof.Machine
end

