-- ==== Sys2Proof/Machine/Crc.lean ====
section
/-! DEFINITION. The CRC16 engine (40_crc.md R150-R155): pure functions; the register is no state. -/
namespace Sys2Proof.Machine

/-- `CRC_POLY_REFLECTED` (R150). -/
def crcPoly : Half := 0xA001

/-- `CRC_INIT` (R150). -/
def crcInit : Half := 0xFFFF

/-- CRC_STEP (R151): one bit, toward bit 0. -/
def crcStep (r : Half) : Half :=
  if r.getLsbD 0 then (r >>> 1) ^^^ crcPoly else r >>> 1

/-- `n` applications of CRC_STEP. -/
def crcSteps : Nat → Half → Half
  | 0, r => r
  | n + 1, r => crcSteps n (crcStep r)

/-- CRC_BYTE (R152). -/
def crcByte (r : Half) (b : Byte) : Half :=
  crcSteps 8 (r ^^^ b.setWidth 16)

/-- CRC_COMPUTE (R153): no final XOR. -/
def crcCompute (bs : List Byte) : Half :=
  bs.foldl crcByte crcInit

/-- CRC_VALIDATE (R154): the last two bytes are the CRC of the others, low byte first. -/
def crcValidate (bs : List Byte) : Bool :=
  let n := bs.length
  if n < 2 then false
  else
    let c := crcCompute (bs.take (n - 2))
    bs.drop (n - 2) == [c.extractLsb' 0 8, c.extractLsb' 8 8]

/-- The table of the byte-table form (R157): `T[i] = CRC_STEP^8(zext_16(i))`. -/
def crcTable (i : Byte) : Half := crcSteps 8 (i.setWidth 16)

end Sys2Proof.Machine
end

