-- ==== Sys2Proof/Machine/Flags.lean ====
section
/-! DEFINITION. The block's flags (10_state.md R52): the status flags the state holds, and the per-frame
values `crc_ok` and `err` that live only inside the step that computes them. -/
namespace Sys2Proof.Machine

/-- `crc_ok` of an inbound frame (40_crc.md R154, R155). -/
def crcOk (rx : Frame) : Bool := crcValidate rx.toList

/-- The echo register word, inbound bytes 2-3 (30_encoding.md R112). -/
def echoWord (rx : Frame) : Half := rd16le rx 2

/-- `err`, the device-reported error: bit 13 of the echo word (42_frame_codec.md R202). -/
def echoErr (rx : Frame) : Bool := (echoWord rx).getLsbD 13

/-- `echo_word & 0x1FFF`, the echoed address (R202). -/
def echoAddr (rx : Frame) : BitVec 13 := (echoWord rx).extractLsb' 0 13

/-- The 3-bit code of `s.fsm` (10_state.md R32). -/
def Fsm.code : Fsm → BitVec 3
  | .idle => 0
  | .build => 1
  | .xfer => 2
  | .wait => 3
  | .closed => 4

end Sys2Proof.Machine
end

