-- ==== Sys2Proof/Machine/Codec.lean ====
section
/-! DEFINITION. The frame codec (42_frame_codec.md R190-R208): the outbound encoder and the inbound
decoder. -/
namespace Sys2Proof.Machine

/-- The service field, bytes 0-3 (R191): the in-flight task's slot value and address, else zeros. -/
def serviceField (s : State) (f : Frame) : Frame :=
  match s.inflightTask with
  | none => f
  | some t => wr16le (wr16le f 0 (s.slotValue t.slot)) 2 (slotAddr t.slot)

/-- ENCODE before the trailer: bytes 0-23 (R191-R197). -/
def encodeBody (s : State) : Frame :=
  let f := serviceField s Frame.zero
  let f := wr8 f 4 0
  let f := wr8 f 5 s.ledCtrl
  let f := wr8 f 6 (s.ledVal &&& s.ledCtrl)
  let f := wr8 f 7 (s.dout.setWidth 8)
  let f := wr16le f 8 (s.pwmDiv.get 0)
  let f := wr16le f 10 (s.dutyCode.get 0)
  let f := wr16le f 12 (s.dutyCode.get 1)
  let f := wr16le f 14 (s.dutyCode.get 2)
  let f := wr16le f 16 (s.pwmDiv.get 1)
  let f := wr16le f 18 (s.dutyCode.get 3)
  let f := wr16le f 20 (s.dacCode.get 0)
  wr16le f 22 (s.dacCode.get 1)

/-- The CRC trailer (R198): bytes 24-25 are the CRC of bytes 0-23, low byte first. -/
def withTrailer (f : Frame) : Frame := wr16le f 24 (crcCompute (f.toList.take 24))

/-- ENCODE (R190). -/
def encodeFrame (s : State) : Frame := withTrailer (encodeBody s)

/-- What DECODE gives for a frame whose CRC is right (R199). -/
structure Decoded where
  echoValue : Half
  echoAddr : BitVec 13
  echoErr : Bool
  status : Byte
  din : BitVec 4
  cnt : Vector Word 2
  aiRaw : Vector Half 2
  aiMode : Vector (BitVec 1) 2
deriving DecidableEq, Repr

/-- DECODE (R199): none is CrcError, with no field produced (R200). -/
def decodeFrame (rx : Frame) (aiMode : Vector (BitVec 1) 2) : Option Decoded :=
  if crcOk rx then
    some {
      echoValue := rd16le rx 0
      echoAddr := Machine.echoAddr rx
      echoErr := Machine.echoErr rx
      status := rd8 rx 4
      din := (rd8 rx 7).extractLsb' 0 4
      cnt := #v[rd32le rx 8, rd32le rx 12]
      aiRaw := #v[rd16le rx 20, rd16le rx 22]
      aiMode := aiMode }
  else none

/-- The snapshot of a decode (R208). -/
def Decoded.snapshot (d : Decoded) : Snapshot where
  din := d.din
  cnt := d.cnt
  aiRaw := d.aiRaw
  aiMode := d.aiMode
  status := d.status

end Sys2Proof.Machine
end

