-- ==== Sys2Proof/Machine/Scheduler.lean ====
section
/-! DEFINITION. The cyclic transport scheduler (44_scheduler.md R250-R258): OPEN, CLOSE, the internal
BUILD_STEP, the transport's answers and TICK. -/
namespace Sys2Proof.Machine

/-- The OPEN-origin read of slot `i` (R251). -/
def openTask (i : SlotIdx) : Task := { slot := i, origin := .opened, tag := BitVec.ofNat 16 i.val }

/-- The 19 reads OPEN queues, in slot order (R251). -/
def openTasks : List Task :=
  [0, 1, 2, 3, 4, 5, 6, 7, 8, 9, 10, 11, 12, 13, 14, 15, 16, 17, 18].map openTask

/-- OPEN (R251). -/
def execOpen (rsv : BitVec 24) (s : State) : Host.Outcome State Fault Refusal :=
  .next (command 0x01 [reservedCheck rsv, (s.fsm != .idle, .badState), openRoomCheck s]
    (fun s => { enqueueAll openTasks s with openRem := 19, openRej := false, fsm := .build }) s)

/-- CLOSE (R252): XFER_RELEASE unless there is no handle to release. -/
def execClose (rsv : BitVec 24) (s : State) : Host.Outcome State Fault Refusal :=
  .next (command 0x02 [reservedCheck rsv, (s.fsm == .closed, .badState)]
    (fun s =>
      let s := if s.fsm = .idle then s else s.emit .xferRelease
      { s with dly := 0, fsm := .closed }) s)

/-- The action of BUILD_STEP (R253): refresh, admission, encoding, the request of the exchange. -/
def buildFrame (s : State) : State :=
  let s := admitNext (cfgRefresh s)
  let s := { s with tx := encodeFrame s }
  { s.emit (.xferReq s.tx) with fsm := .xfer }

/-- BUILD_STEP (R253): enabled exactly when `s.fsm = BUILD` (R14, R250). -/
def execBuildStep (s : State) : Host.Outcome State Fault Refusal :=
  if s.fsm = .build then .next (buildFrame s) else .fault .buildStepNotEnabled

/-- The reply of an exchange (R254): a CRC failure is the error CrcMismatch (60_exceptions.md R302) and
touches nothing else; a valid reply publishes the snapshot, completes the in-flight task if the echo
matches, and then signals DATA_READY. -/
def dispatchReply (rx : Frame) (s : State) : State :=
  match decodeFrame rx s.aiMode with
  | none => raise (.frameError .crcMismatch rx) s
  | some d =>
    let s := { s with snap := d.snapshot, snapV := true }
    let s := complete d.echoAddr d.echoValue d.echoErr s
    s.emit (.dataReady s.snap)

/-- XFER_DONE (R254); ignored outside XFER (R258). -/
def execXferDone (rx : Frame) (s : State) : Host.Outcome State Fault Refusal :=
  if s.fsm = .xfer then .next (schedule (dispatchReply rx s)) else .next s

/-- XFER_FAIL (R255): the error TransportFailure (60_exceptions.md R304); ignored outside XFER (R258). -/
def execXferFail (reason : Byte) (s : State) : Host.Outcome State Fault Refusal :=
  if s.fsm = .xfer then .next (schedule (raise (.transportError reason) s)) else .next s

/-- The countdown of TICK in WAIT (R257). -/
def countTick (s : State) : State :=
  let s := { s with dly := s.dly - 1 }
  if s.dly = 0 then { s with fsm := .build } else s

/-- TICK (R257); ignored outside WAIT (R258). -/
def execTick (s : State) : Host.Outcome State Fault Refusal :=
  if s.fsm = .wait then .next (countTick s) else .next s

end Sys2Proof.Machine
end

