-- ==== Sys2Proof/Machine/Service.lean ====
section
/-! DEFINITION. The service-register commands (43_service_queue.md R229, R230). -/
namespace Sys2Proof.Machine

/-- SVC_READ (R229): queue a HOST task for the slot. -/
def execSvcRead (slot : BitVec 8) (tag : Half) (s : State) : Host.Outcome State Fault Refusal :=
  .next (command 0x30 [indexCheck 18 slot, closedCheck s, fullCheck s]
    (enqueueAll [{ slot := slotOperand slot, origin := .host, tag := tag }]) s)

/-- SVC_WRITE (R230): write the slot's value and queue a HOST task for it, in one step (20_memory.md R97). -/
def execSvcWrite (slot : BitVec 8) (tag : Half) (prsv : BitVec 48) (value : Half) (s : State) :
    Host.Outcome State Fault Refusal :=
  .next (command 0x31 [reservedCheck prsv, indexCheck 18 slot, closedCheck s, fullCheck s]
    (fun s => enqueueAll [{ slot := slotOperand slot, origin := .host, tag := tag }]
      (s.setSlot (slotOperand slot) value)) s)

end Sys2Proof.Machine
end

