-- ==== Sys2Proof/Machine/Dispatch.lean ====
section
/-! DEFINITION. One arm per instruction; each calls its own meaning. -/
namespace Sys2Proof.Machine

def exec (i : Instr) (s : State) : Host.Outcome State Fault Refusal :=
  match i with
  | .openCmd rsv => Sys2Proof.Machine.execOpen rsv s
  | .closeCmd rsv => Sys2Proof.Machine.execClose rsv s
  | .setLed rsv ctrl val => Sys2Proof.Machine.execSetLed rsv ctrl val s
  | .setDout rsv mask => Sys2Proof.Machine.execSetDout rsv mask s
  | .setPwmDuty rsv k num den => Sys2Proof.Machine.execSetPwmDuty rsv k num den s
  | .setPwmFreq rsv g num den => Sys2Proof.Machine.execSetPwmFreq rsv g num den s
  | .setAout rsv c num den => Sys2Proof.Machine.execSetAout rsv c num den s
  | .setRs485Baud baud => Sys2Proof.Machine.execSetRs485Baud baud s
  | .setRs485Mode rsv stop parity => Sys2Proof.Machine.execSetRs485Mode rsv stop parity s
  | .setBoardCfg rsv ai2 ai1 term => Sys2Proof.Machine.execSetBoardCfg rsv ai2 ai1 term s
  | .svcRead slot tag => Sys2Proof.Machine.execSvcRead slot tag s
  | .svcWrite slot tag prsv value => Sys2Proof.Machine.execSvcWrite slot tag prsv value s
  | .tick => Sys2Proof.Machine.execTick s
  | .xferDone rx => Sys2Proof.Machine.execXferDone rx s
  | .xferFail reason => Sys2Proof.Machine.execXferFail reason s
  | .buildStep => Sys2Proof.Machine.execBuildStep s

end Sys2Proof.Machine
end

