-- ==== Sys2Proof/Decode.lean ====
section
/-! DEFINITION. From a port's raw message to an instruction and back (30_encoding.md R100-R107, R119).
`decode` is total: a word that is no input is rejected by name. `encode` writes an instruction's words
from the same formats. -/
namespace Sys2Proof

/-- Why a message is no instruction. -/
inductive DecodeError where
  /-- An unassigned opcode on the host command port (R106). -/
  | unknownOpcode (op : Byte)
  /-- A word on an environment port that is none of its event words (R107). -/
  | notAnInput (port : Port) (op : Byte)
deriving DecidableEq, Repr

/-- `word[31:24]` (R101, R107). -/
def opcodeOf (w : Word) : Byte := w.extractLsb' 24 8

/-- The reserved bits `word[23:4]` of the formats D, R and M. -/
def rsv20 (w : Word) : BitVec 20 := w.extractLsb' 4 20

/-- The 4-bit index `word[3:0]` of the formats D and R. -/
def index4 (w : Word) : BitVec 4 := w.extractLsb' 0 4

/-- `num = payload[63:32]` (R104). -/
def payloadNum (p : Payload) : Word := p.extractLsb' 32 32

/-- `den = payload[31:0]` (R104). -/
def payloadDen (p : Payload) : Word := p.extractLsb' 0 32

/-- The twelve host commands, as the opcode map names them (R105). -/
inductive HostOp where
  | openOp
  | closeOp
  | setLed
  | setDout
  | setPwmDuty
  | setPwmFreq
  | setAout
  | setRs485Baud
  | setRs485Mode
  | setBoardCfg
  | svcRead
  | svcWrite
deriving DecidableEq, Repr

/-- The opcode of a host command (R105). -/
def HostOp.code : HostOp → Byte
  | .openOp => 0x01
  | .closeOp => 0x02
  | .setLed => 0x10
  | .setDout => 0x11
  | .setPwmDuty => 0x12
  | .setPwmFreq => 0x13
  | .setAout => 0x14
  | .setRs485Baud => 0x20
  | .setRs485Mode => 0x21
  | .setBoardCfg => 0x22
  | .svcRead => 0x30
  | .svcWrite => 0x31

/-- Every host command, in the order of the opcode map. -/
def HostOp.all : List HostOp :=
  [.openOp, .closeOp, .setLed, .setDout, .setPwmDuty, .setPwmFreq, .setAout, .setRs485Baud,
    .setRs485Mode, .setBoardCfg, .svcRead, .svcWrite]

/-- The command an opcode names on the host port; none for an unassigned one (R105, R106). -/
def hostOp (op : Byte) : Option HostOp := HostOp.all.find? fun o => o.code == op

/-- The operand fields of a command, by its format (R102). -/
def hostFields (o : HostOp) (w : Word) (p : Payload) : Instr :=
  match o with
  | .openOp => .openCmd (w.extractLsb' 0 24)
  | .closeOp => .closeCmd (w.extractLsb' 0 24)
  | .setLed => .setLed (w.extractLsb' 16 8) (w.extractLsb' 8 8) (w.extractLsb' 0 8)
  | .setDout => .setDout (rsv20 w) (index4 w)
  | .setPwmDuty => .setPwmDuty (rsv20 w) (index4 w) (payloadNum p) (payloadDen p)
  | .setPwmFreq => .setPwmFreq (rsv20 w) (index4 w) (payloadNum p) (payloadDen p)
  | .setAout => .setAout (rsv20 w) (index4 w) (payloadNum p) (payloadDen p)
  | .setRs485Baud => .setRs485Baud (w.extractLsb' 0 24)
  | .setRs485Mode => .setRs485Mode (rsv20 w) (w.extractLsb' 2 2) (w.extractLsb' 0 2)
  | .setBoardCfg => .setBoardCfg (w.extractLsb' 3 21) (w.extractLsb' 2 1) (w.extractLsb' 1 1) (w.extractLsb' 0 1)
  | .svcRead => .svcRead (w.extractLsb' 16 8) (w.extractLsb' 0 16)
  | .svcWrite => .svcWrite (w.extractLsb' 16 8) (w.extractLsb' 0 16) (p.extractLsb' 16 48) (p.extractLsb' 0 16)

/-- The host command port (R101, R105, R106). -/
def decodeHost (w : Word) (p : Payload) : Except DecodeError Instr :=
  match hostOp (opcodeOf w) with
  | some o => .ok (hostFields o w p)
  | none => .error (.unknownOpcode (opcodeOf w))

/-- The tick source's port: only TICK, with `word[23:0]` ignored (R107). -/
def decodeTick (w : Word) : Except DecodeError Instr :=
  if opcodeOf w = 0x80 then .ok .tick else .error (.notAnInput .tick (opcodeOf w))

/-- The transport's port: XFER_DONE with its 26 bytes, or XFER_FAIL with its reason (R107). -/
def decodeTransport (w : Word) (rx : Frame) : Except DecodeError Instr :=
  if opcodeOf w = 0x81 then .ok (.xferDone rx)
  else if opcodeOf w = 0x82 then .ok (.xferFail (w.extractLsb' 0 8))
  else .error (.notAnInput .transport (opcodeOf w))

/-- The instruction a raw message stands for. -/
def decode : Msg → Except DecodeError Instr
  | .host w p => decodeHost w p
  | .tick w => decodeTick w
  | .transport w rx => decodeTransport w rx
  | .internal => .ok .buildStep

/-! ### The encoder -/

/-- The command or event word of an instruction (R102, R105, R107); ignored bits are written as zero.
BUILD_STEP has none, and its value here stands in no message. -/
def encodeWord : Instr → Word
  | .openCmd rsv => 0x01#8 ++ rsv
  | .closeCmd rsv => 0x02#8 ++ rsv
  | .setLed rsv ctrl val => 0x10#8 ++ rsv ++ ctrl ++ val
  | .setDout rsv mask => 0x11#8 ++ rsv ++ mask
  | .setPwmDuty rsv k _ _ => 0x12#8 ++ rsv ++ k
  | .setPwmFreq rsv g _ _ => 0x13#8 ++ rsv ++ g
  | .setAout rsv c _ _ => 0x14#8 ++ rsv ++ c
  | .setRs485Baud baud => 0x20#8 ++ baud
  | .setRs485Mode rsv stop parity => 0x21#8 ++ rsv ++ stop ++ parity
  | .setBoardCfg rsv ai2 ai1 term => 0x22#8 ++ rsv ++ ai2 ++ ai1 ++ term
  | .svcRead slot tag => 0x30#8 ++ slot ++ tag
  | .svcWrite slot tag _ _ => 0x31#8 ++ slot ++ tag
  | .tick => 0x80000000
  | .xferDone _ => 0x81000000
  | .xferFail reason => 0x82#8 ++ 0#16 ++ reason
  | .buildStep => 0

/-- The 64-bit payload of the formats R and SW; zero for an instruction that has none (R102, R104, R119). -/
def encodePayload : Instr → Payload
  | .setPwmDuty _ _ num den => num ++ den
  | .setPwmFreq _ _ num den => num ++ den
  | .setAout _ _ num den => num ++ den
  | .svcWrite _ _ prsv value => prsv ++ value
  | .openCmd _ => 0
  | .closeCmd _ => 0
  | .setLed _ _ _ => 0
  | .setDout _ _ => 0
  | .setRs485Baud _ => 0
  | .setRs485Mode _ _ _ => 0
  | .setBoardCfg _ _ _ _ => 0
  | .svcRead _ _ => 0
  | .tick => 0
  | .xferDone _ => 0
  | .xferFail _ => 0
  | .buildStep => 0

/-- The message that delivers an instruction, on its own port. -/
def encode (i : Instr) : Msg :=
  match i with
  | .tick => .tick (encodeWord i)
  | .xferDone rx => .transport (encodeWord i) rx
  | .xferFail _ => .transport (encodeWord i) Frame.zero
  | .buildStep => .internal
  | .openCmd _ => .host (encodeWord i) (encodePayload i)
  | .closeCmd _ => .host (encodeWord i) (encodePayload i)
  | .setLed _ _ _ => .host (encodeWord i) (encodePayload i)
  | .setDout _ _ => .host (encodeWord i) (encodePayload i)
  | .setPwmDuty _ _ _ _ => .host (encodeWord i) (encodePayload i)
  | .setPwmFreq _ _ _ _ => .host (encodeWord i) (encodePayload i)
  | .setAout _ _ _ _ => .host (encodeWord i) (encodePayload i)
  | .setRs485Baud _ => .host (encodeWord i) (encodePayload i)
  | .setRs485Mode _ _ _ => .host (encodeWord i) (encodePayload i)
  | .setBoardCfg _ _ _ _ => .host (encodeWord i) (encodePayload i)
  | .svcRead _ _ => .host (encodeWord i) (encodePayload i)
  | .svcWrite _ _ _ _ => .host (encodeWord i) (encodePayload i)

/-- True for an instruction whose command is one word and a 64-bit payload (R119). -/
def hasPayload (i : Instr) : Bool :=
  match i with
  | .setPwmDuty _ _ _ _ => true
  | .setPwmFreq _ _ _ _ => true
  | .setAout _ _ _ _ => true
  | .svcWrite _ _ _ _ => true
  | .openCmd _ => false
  | .closeCmd _ => false
  | .setLed _ _ _ => false
  | .setDout _ _ => false
  | .setRs485Baud _ => false
  | .setRs485Mode _ _ _ => false
  | .setBoardCfg _ _ _ _ => false
  | .svcRead _ _ => false
  | .tick => false
  | .xferDone _ => false
  | .xferFail _ => false
  | .buildStep => false

/-! ### Words numbered as the opcode table numbers them -/

/-- The 26 bytes of a number, the first in its low 8 bits. -/
def frameOfNat (n : Nat) : Frame :=
  ⟨((List.range 26).map fun i => BitVec.ofNat 8 (n >>> (8 * i))).toArray, by simp⟩

/-- The message whose bits are the low `nbits` bits of `w`: bits 31..0 the word, the bits from 32 on the
payload or the frame's bytes, lower offsets in lower bits. The port is the one the opcode's row names
(R107). A row without bits is BUILD_STEP's (notes/assumptions/10.md). -/
def tableMsg (nbits w : Nat) : Msg :=
  if nbits = 0 then .internal
  else
    let v := w % 2 ^ nbits
    let word : Word := BitVec.ofNat 32 v
    if opcodeOf word = 0x80 then .tick word
    else if opcodeOf word = 0x81 ∨ opcodeOf word = 0x82 then .transport word (frameOfNat (v >>> 32))
    else .host word (BitVec.ofNat 64 (v >>> 32))

/-- The instruction the decoder reads from a table word. -/
def decodeTableWord (nbits w : Nat) : Option Instr :=
  match decode (tableMsg nbits w) with
  | .ok i => some i
  | .error _ => none

end Sys2Proof
end

