-- ==== Sys2Proof/Machine/Fetch.lean ====
section
/-! DEFINITION. Which input the block takes next (00_scope.md R14, 20_memory.md R92), and what becomes of
a message that decodes to no instruction. `step` only calls these. -/
namespace Sys2Proof.Machine

/-- The next input: the head of the inbox, taken off it; with an empty inbox the internal step where it is
enabled, and none where the block waits for an input (notes/assumptions/1.md). -/
def fetch (s : State) : Option (Except DecodeError Instr × State) :=
  match s.inbox with
  | m :: rest => some (decode m, { s with inbox := rest })
  | [] => if s.fsm = .build then some (.ok .buildStep, s) else none

/-- A message that is no instruction: an unassigned opcode is a command the block refuses (30_encoding.md
R106); a foreign word on an environment port is no input of the block (R107, notes/assumptions/5.md). -/
def refuseInput (e : DecodeError) (s : State) : Host.Outcome State Fault Refusal :=
  match e with
  | .unknownOpcode op => .next (unknownOpcode op s)
  | .notAnInput port op => .refused (.notAnInput port op)

/-- The message of a table word placed as the next input. A row without bits is BUILD_STEP, which only
`s.fsm = BUILD` selects (notes/assumptions/10.md). -/
def placeTableWord (s : State) (nbits w : Nat) : State :=
  if nbits = 0 then { s with inbox := .internal :: s.inbox, fsm := .build }
  else { s with inbox := tableMsg nbits w :: s.inbox }

end Sys2Proof.Machine
end

