-- ==== Sys2Proof/Machine/Asm.lean ====
section
/-! DEFINITION. The assembler syntax of host command programs and its pseudo-instructions
(30_encoding.md R117, R118): from text to instructions. The block never sees this text; a line gives the
instructions whose words it is delivered. -/
namespace Sys2Proof.Machine

/-- A token: a mnemonic, a number, a field name, a comma or an equals sign. -/
abbrev Tok := List Char

/-- A reader of operands: it takes tokens from the front of the line, or fails. -/
abbrev Reader := StateT (List Tok) Option

/-- The token read so far, unless it is empty. -/
def flushTok (acc : Tok) (rest : List Tok) : List Tok :=
  if acc.isEmpty then rest else acc.reverse :: rest

/-- The tokens of one line; `;` starts a comment (R117). `acc` holds the current token, reversed. -/
def tokensOf : Tok → List Char → List Tok
  | acc, [] => flushTok acc []
  | acc, c :: cs =>
    if c = ';' then flushTok acc []
    else if c = ',' ∨ c = '=' then flushTok acc ([c] :: tokensOf [] cs)
    else if c = ' ' ∨ c = '\t' then flushTok acc (tokensOf [] cs)
    else tokensOf (c :: acc) cs

/-- The value of a digit, below 16. -/
def digitOf (c : Char) : Option Nat :=
  let n := c.toNat
  if 48 ≤ n ∧ n ≤ 57 then some (n - 48)
  else if 65 ≤ n ∧ n ≤ 70 then some (n - 55)
  else if 97 ≤ n ∧ n ≤ 102 then some (n - 87)
  else none

/-- Digits in a base, most significant first, after the value `acc`. -/
def digitsFrom (base acc : Nat) : List Char → Option Nat
  | [] => some acc
  | c :: cs => match digitOf c with
    | none => none
    | some d => if d < base then digitsFrom base (acc * base + d) cs else none

/-- A nonempty run of digits. -/
def numberIn (base : Nat) (cs : List Char) : Option Nat :=
  if cs.isEmpty then none else digitsFrom base 0 cs

/-- An unsigned integer, decimal or `0x` hexadecimal (R117). -/
def natOf : Tok → Option Nat
  | '0' :: 'x' :: ds => numberIn 16 ds
  | ds => numberIn 10 ds

/-- A signed integer. -/
def intOf : Tok → Option Int
  | '-' :: ds => (natOf ds).map fun n => -(n : Int)
  | ds => (natOf ds).map fun n => (n : Int)

/-- The part before a character and the part after it. -/
def splitOn (c : Char) : List Char → Option (List Char × List Char)
  | [] => none
  | d :: ds => if d = c then some ([], ds) else (splitOn c ds).map fun p => (d :: p.1, p.2)

/-- `num` and `den` as payload words, where they fit (R104). -/
def ratWords (num : Int) (den : Nat) : Option (Word × Word) :=
  if -2147483648 ≤ num ∧ num ≤ 2147483647 ∧ den < 4294967296 then
    some (BitVec.ofInt 32 num, BitVec.ofNat 32 den)
  else none

/-- A decimal literal `a.b`, assembled in lowest terms (R117). -/
def decimalOf (neg : Bool) (whole frac : List Char) : Option (Word × Word) := do
  let w ← numberIn 10 whole
  let f ← numberIn 10 frac
  let scale := 10 ^ frac.length
  let n := w * scale + f
  let g := Nat.gcd n scale
  let num : Int := (n / g : Nat)
  ratWords (if neg then -num else num) (scale / g)

/-- A rational operand: `n/d` as written, a decimal literal, or an integer over 1 (R117). -/
def ratOf (t : Tok) : Option (Word × Word) :=
  match splitOn '/' t with
  | some (n, d) => do ratWords (← intOf n) (← natOf d)
  | none =>
    match splitOn '.' t with
    | some ('-' :: a, b) => decimalOf true a b
    | some (a, b) => decimalOf false a b
    | none => do ratWords (← intOf t) 1

/-- The next token. -/
def anyTok : Reader Tok := fun ts => match ts with
  | [] => none
  | t :: rest => some (t, rest)

/-- Exactly this token. -/
def lit (t : Tok) : Reader Unit := do
  let x ← anyTok
  if x = t then pure () else failure

/-- A comma. -/
def comma : Reader Unit := lit [',']

/-- `name=`. -/
def named (name : String) : Reader Unit := do
  lit name.toList
  lit ['=']

/-- An integer 0..last. -/
def natTo (last : Nat) : Reader Nat := do
  let t ← anyTok
  match natOf t with
  | some n => if n ≤ last then pure n else failure
  | none => failure

/-- A rational operand. -/
def rational : Reader (Word × Word) := do
  let t ← anyTok
  match ratOf t with
  | some r => pure r
  | none => failure

/-- `V` (voltage, 0) or `I` (current, 1). -/
def aiLetter : Reader (BitVec 1) := do
  let t ← anyTok
  if t = ['V'] then pure 0 else if t = ['I'] then pure 1 else failure

/-- One hexadecimal byte of two digits, no prefix. -/
def hexByte : Reader Byte := do
  let t ← anyTok
  match t with
  | [a, b] => match numberIn 16 [a, b] with
    | some n => pure (BitVec.ofNat 8 n)
    | none => failure
  | _ => failure

/-- `n` bytes. -/
def hexBytes : Nat → Reader (List Byte)
  | 0 => pure []
  | n + 1 => do
    let b ← hexByte
    let bs ← hexBytes n
    pure (b :: bs)

/-- The operands of a line after its mnemonic, and the instructions it gives (R117, R118). -/
def lineBody (mnemonic : Tok) : Reader (List Instr) :=
  if mnemonic = "OPEN".toList then pure [.openCmd 0]
  else if mnemonic = "CLOSE".toList then pure [.closeCmd 0]
  else if mnemonic = "SET_LED".toList then do
    named "ctrl"; let c ← natTo 255; comma; named "val"; let v ← natTo 255
    pure [.setLed 0 (BitVec.ofNat 8 c) (BitVec.ofNat 8 v)]
  else if mnemonic = "SET_DOUT".toList then do
    let m ← natTo 15
    pure [.setDout 0 (BitVec.ofNat 4 m)]
  else if mnemonic = "SET_PWM_DUTY".toList then do
    let k ← natTo 3; comma; let (n, d) ← rational
    pure [.setPwmDuty 0 (BitVec.ofNat 4 k) n d]
  else if mnemonic = "SET_PWM_FREQ".toList then do
    let g ← natTo 1; comma; let (n, d) ← rational
    pure [.setPwmFreq 0 (BitVec.ofNat 4 g) n d]
  else if mnemonic = "SET_AOUT".toList then do
    let c ← natTo 1; comma; let (n, d) ← rational
    pure [.setAout 0 (BitVec.ofNat 4 c) n d]
  else if mnemonic = "SET_RS485_BAUD".toList then do
    let b ← natTo 16777215
    pure [.setRs485Baud (BitVec.ofNat 24 b)]
  else if mnemonic = "SET_RS485_MODE".toList then do
    named "parity"; let p ← natTo 3; comma; named "stop"; let t ← natTo 3
    pure [.setRs485Mode 0 (BitVec.ofNat 2 t) (BitVec.ofNat 2 p)]
  else if mnemonic = "SET_BOARD_CFG".toList then do
    named "term"; let t ← natTo 1; comma; named "ai1"; let a1 ← aiLetter; comma; named "ai2"; let a2 ← aiLetter
    pure [.setBoardCfg 0 a2 a1 (BitVec.ofNat 1 t)]
  else if mnemonic = "SVC_READ".toList then do
    let i ← natTo 255; comma; named "tag"; let t ← natTo 65535
    pure [.svcRead (BitVec.ofNat 8 i) (BitVec.ofNat 16 t)]
  else if mnemonic = "SVC_WRITE".toList then do
    let i ← natTo 255; comma; let v ← natTo 65535; comma; named "tag"; let t ← natTo 65535
    pure [.svcWrite (BitVec.ofNat 8 i) (BitVec.ofNat 16 t) 0 (BitVec.ofNat 16 v)]
  else if mnemonic = "TICK".toList then pure [.tick]
  else if mnemonic = "XFER_FAIL".toList then do
    let r ← natTo 255
    pure [.xferFail (BitVec.ofNat 8 r)]
  else if mnemonic = "XFER_DONE".toList then do
    let bs ← hexBytes 26
    pure [.xferDone (Vector.ofFn fun i : Fin 26 => bs.getD i.val 0)]
  else if mnemonic = "BUILD_STEP".toList then pure [.buildStep]
  else if mnemonic = "SET_PWM".toList then do
    let k ← natTo 3; comma; let (fn, fd) ← rational; comma; let (dn, dd) ← rational
    pure [.setPwmFreq 0 (if k ≤ 2 then 0 else 1) fn fd, .setPwmDuty 0 (BitVec.ofNat 4 k) dn dd]
  else if mnemonic = "SET_RS485".toList then do
    let b ← natTo 16777215; comma; named "parity"; let p ← natTo 3; comma; named "stop"; let t ← natTo 3
    pure [.setRs485Baud (BitVec.ofNat 24 b), .setRs485Mode 0 (BitVec.ofNat 2 t) (BitVec.ofNat 2 p)]
  else if mnemonic = "LEDS_AUTO".toList then pure [.setLed 0 0 0]
  else if mnemonic = "SVC_READ_ALL".toList then do
    let t ← natTo 65535
    pure ((List.range 19).map fun i => .svcRead (BitVec.ofNat 8 i) (BitVec.ofNat 16 (t + i)))
  else if mnemonic = "WAIT_TICKS".toList then do
    let t ← anyTok
    match natOf t with
    | some n => pure (List.replicate n .tick)
    | none => failure
  else failure

/-- The instructions of one line; none when the line is not of the syntax. -/
def assembleLine (cs : List Char) : Option (List Instr) :=
  match tokensOf [] cs with
  | [] => some []
  | m :: ops => match (lineBody m).run ops with
    | some (is, []) => some is
    | _ => none

/-- The lines of a text. `acc` holds the current line, reversed. -/
def linesOf : List Char → List Char → List (List Char)
  | acc, [] => [acc.reverse]
  | acc, c :: cs => if c = '\n' then acc.reverse :: linesOf [] cs else linesOf (c :: acc) cs

/-- The instructions of a program, one command per line (R117). -/
def assemble (text : List Char) : Option (List Instr) :=
  ((linesOf [] text).mapM assembleLine).map List.flatten

end Sys2Proof.Machine
end

