-- ==== Sys2Proof/Machine/Events.lean ====
section
/-! DEFINITION. The bits of the output events (30_encoding.md R108, R109, R116, R120): the event word and
the bytes that follow it. -/
namespace Sys2Proof.Machine

/-- The cause byte of CMD_ERROR (R109). -/
def Cause.code : Cause → Byte
  | .unknownOpcode => 0x01
  | .reservedNonzero => 0x02
  | .indexRange => 0x03
  | .domain => 0x04
  | .badState => 0x05
  | .queueFull => 0x06
  | .closed => 0x07

/-- The origin code of a task (R120). -/
def Origin.code : Origin → BitVec 2
  | .host => 0
  | .opened => 1
  | .cfg => 2

/-- The side bit of RANGE_WARNING (R108). -/
def Side.code : Side → BitVec 1
  | .low => 0
  | .high => 1

/-- The reason byte of FRAME_ERROR (R108). -/
def FrameReason.code : FrameReason → Byte
  | .crcMismatch => 0x01

/-- Fields of SVC_RESOLVE and SVC_REJECT: `[23:22]` origin, `[20:16]` slot, `[15:0]` tag. -/
def Task.fields (t : Task) : BitVec 24 :=
  t.origin.code ++ 0#1 ++ BitVec.ofNat 5 t.slot.val ++ t.tag

/-- The event word (R108); unnamed bits are zero. -/
def Event.word : Event → Word
  | .dataReady _ => 0xC0000000
  | .frameError r _ => 0xC1#8 ++ 0#16 ++ r.code
  | .transportError r => 0xC2#8 ++ 0#16 ++ r
  | .rangeWarning c side => 0xC3#8 ++ 0#22 ++ side.code ++ c
  | .svcResolve t _ => 0xC4#8 ++ t.fields
  | .svcReject t _ => 0xC5#8 ++ t.fields
  | .openDone rej => 0xC6#8 ++ 0#23 ++ BitVec.ofBool rej
  | .xferReq _ => 0xC7000000
  | .xferRelease => 0xC8000000
  | .cmdError op cause => 0xC9#8 ++ 0#8 ++ op ++ cause.code

/-- A halfword's bytes, little-endian. -/
def bytes16 (v : Half) : List Byte := [v.extractLsb' 0 8, v.extractLsb' 8 8]

/-- A word's bytes, little-endian. -/
def bytes32 (v : Word) : List Byte :=
  [v.extractLsb' 0 8, v.extractLsb' 8 8, v.extractLsb' 16 8, v.extractLsb' 24 8]

/-- The 16-byte snapshot record of DATA_READY (R116). -/
def Snapshot.record (n : Snapshot) : List Byte :=
  [n.din.setWidth 8, n.status] ++ bytes32 (n.cnt.get 0) ++ bytes32 (n.cnt.get 1)
    ++ bytes16 (n.aiRaw.get 0) ++ bytes16 (n.aiRaw.get 1)
    ++ [(n.aiMode.get 1 ++ n.aiMode.get 0).setWidth 8, 0]

/-- The bytes after the event word (R108). -/
def Event.tail : Event → List Byte
  | .dataReady n => n.record
  | .frameError _ rx => rx.toList
  | .transportError _ => []
  | .rangeWarning _ _ => []
  | .svcResolve _ v => bytes16 v
  | .svcReject _ v => bytes16 v
  | .openDone _ => []
  | .xferReq tx => tx.toList
  | .xferRelease => []
  | .cmdError _ _ => []

end Sys2Proof.Machine
end

