-- ==== Sys2Proof/Safety.lean ====
section
/-! DEFINITION. What a safe state of the block is, in the terms the statements use: the invariant that
every step keeps, what a step may append to the output, and the obligations the spec leaves to the
environment. -/
namespace Sys2Proof.Machine

/-- The OPEN-origin tasks of a list. -/
def openCount (ts : List Task) : Nat := ts.countP (fun t => t.origin == .opened)

/-- The tasks that are queued or in flight (43_service_queue.md R220). -/
def State.tasks (s : State) : List Task := s.queue ++ s.inflightTask.toList

/-- `s.qlen` is at most `Q_DEPTH` (10_state.md R45). -/
def State.QueueFits (s : State) : Prop := s.qlen ≤ s.par.qDepth

/-- Each analog-output code is in 0..4095 (10_state.md R37). -/
def State.DacInRange (s : State) : Prop := ∀ c : Fin 2, (s.dacCode.get c).toNat ≤ 4095

/-- The baud setting holds a legal value, 1..65535 (10_state.md R38). -/
def State.BaudLegal (s : State) : Prop := 1 ≤ s.baudReg.toNat

/-- The delay counter is live exactly in WAIT (10_state.md R33: `s.dly ≥ 1` there). -/
def State.DelayLive (s : State) : Prop := s.fsm = .wait ↔ s.dly ≠ 0

/-- `s.open_rem` counts the OPEN-origin tasks not yet completed (10_state.md R48). -/
def State.OpenCounted (s : State) : Prop := s.openRem.toNat = openCount s.tasks

/-- An OPEN or CFG task's tag is its slot index (30_encoding.md R120). -/
def State.TagsAreSlots (s : State) : Prop :=
  ∀ t ∈ s.tasks, t.origin ≠ .host → t.tag = BitVec.ofNat 16 t.slot.val

/-- Before OPEN nothing is in flight and no OPEN task exists (44_scheduler.md R251, R253). -/
def State.IdleQuiet (s : State) : Prop :=
  s.fsm = .idle → s.inflightV = false ∧ s.openRem = 0

/-- Until a snapshot is published its fields hold their reset values and no DATA_READY has been emitted
(10_state.md R50). -/
def State.SnapQuiet (s : State) : Prop :=
  s.snapV = false → s.snap = Snapshot.zero ∧ ∀ n, Event.dataReady n ∉ s.outs

/-- While an exchange is outstanding, `s.tx` is a frame with a right trailer that an XFER_REQ carried
(10_state.md R51, 42_frame_codec.md R198). -/
def State.TxOutstanding (s : State) : Prop :=
  s.fsm = .xfer → crcOk s.tx = true ∧ Event.xferReq s.tx ∈ s.outs

/-- The invariant of the block. -/
structure State.Inv (s : State) : Prop where
  queueFits : s.QueueFits
  dacInRange : s.DacInRange
  baudLegal : s.BaudLegal
  delayLive : s.DelayLive
  openCounted : s.OpenCounted
  tagsAreSlots : s.TagsAreSlots
  idleQuiet : s.IdleQuiet
  snapQuiet : s.SnapQuiet
  txOutstanding : s.TxOutstanding

/-- SVC_RESOLVE or SVC_REJECT of a task: its completion (43_service_queue.md R231). -/
def Event.completes : Event → Option Task
  | .svcResolve t _ => some t
  | .svcReject t _ => some t
  | .dataReady _ => none
  | .frameError _ _ => none
  | .transportError _ => none
  | .rangeWarning _ _ => none
  | .openDone _ => none
  | .xferReq _ => none
  | .xferRelease => none
  | .cmdError _ _ => none

/-- `s` with these events emitted and nothing else changed. -/
def State.answered (s : State) (evs : List Event) : State := { s with outs := s.outs ++ evs }

/-- The events a step from `s` to `t` appended. -/
def newOuts (s t : State) : List Event := t.outs.drop s.outs.length

/-- The 12 host commands (30_encoding.md R105). -/
def isHostCommand (i : Instr) : Bool :=
  match encode i with
  | .host _ _ => true
  | .tick _ => false
  | .transport _ _ => false
  | .internal => false

/-- The SET_* commands (45_host_commands.md R281-R288). -/
def isSetCommand : Instr → Bool
  | .setLed _ _ _ => true
  | .setDout _ _ => true
  | .setPwmDuty _ _ _ _ => true
  | .setPwmFreq _ _ _ _ => true
  | .setAout _ _ _ _ => true
  | .setRs485Baud _ => true
  | .setRs485Mode _ _ _ => true
  | .setBoardCfg _ _ _ _ => true
  | .openCmd _ => false
  | .closeCmd _ => false
  | .svcRead _ _ => false
  | .svcWrite _ _ _ _ => false
  | .tick => false
  | .xferDone _ => false
  | .xferFail _ => false
  | .buildStep => false

/-- The opcode ranges 30_encoding.md R106 lists as unassigned on the host command port. -/
def unassignedOpcode (op : Byte) : Bool :=
  let n := op.toNat
  n == 0x00 || (0x03 ≤ n && n ≤ 0x0F) || (0x15 ≤ n && n ≤ 0x1F) || (0x23 ≤ n && n ≤ 0x2F)
    || (0x32 ≤ n && n ≤ 0xFF)

/-- The watchdog obligation (70_reset_and_hazards.md R343), a duty of the environment: the idle cycle,
`PERIOD_TICKS × TICK_SECONDS` plus the exchange time, is shorter than the device's timeout. No rule of
the block depends on it. -/
def watchdogKept (p : Params) (exchangeSeconds timeoutSeconds : Rat) : Prop :=
  (p.periodTicks.toNat : Rat) * p.tickSeconds + exchangeSeconds < timeoutSeconds

end Sys2Proof.Machine
end

