-- ==== Sys2Proof/WellFormed.lean ====
section
/-! DEFINITION. Well-formed instructions: the operand checks 2 to 4 of 45_host_commands.md R280 all pass
(reserved bits zero, indices in range, values in their domain). An ill-formed host command still decodes
and still runs: the block answers it with CMD_ERROR. -/
namespace Sys2Proof

/-- The rational operand is defined: `den ≠ 0` (30_encoding.md R104). -/
def denOk (den : Word) : Bool := den != 0

/-- `0 ≤ num/den ≤ 1` for `den > 0` (45_host_commands.md R283). -/
def dutyOk (num den : Word) : Bool := decide (0 ≤ num.toInt) && decide (num.toInt ≤ (den.toNat : Int))

/-- `baud` is a positive multiple of 100 with `baud / 100 ≤ 65535` (45_host_commands.md R286). -/
def baudOk (baud : BitVec 24) : Bool :=
  baud != 0 && baud.toNat % 100 == 0 && decide (baud.toNat / 100 ≤ 65535)

/-- Every operand check of the instruction's own rule passes. -/
def Instr.wellFormed : Instr → Bool
  | .openCmd rsv => rsv == 0
  | .closeCmd rsv => rsv == 0
  | .setLed rsv _ _ => rsv == 0
  | .setDout rsv _ => rsv == 0
  | .setPwmDuty rsv k num den => rsv == 0 && decide (k.toNat ≤ 3) && denOk den && dutyOk num den
  | .setPwmFreq rsv g _ den => rsv == 0 && decide (g.toNat ≤ 1) && denOk den
  | .setAout rsv c _ den => rsv == 0 && decide (c.toNat ≤ 1) && denOk den
  | .setRs485Baud baud => baudOk baud
  | .setRs485Mode rsv _ _ => rsv == 0
  | .setBoardCfg rsv _ _ _ => rsv == 0
  | .svcRead slot _ => decide (slot.toNat ≤ 18)
  | .svcWrite slot _ prsv _ => prsv == 0 && decide (slot.toNat ≤ 18)
  | .tick => true
  | .xferDone _ => true
  | .xferFail _ => true
  | .buildStep => true

end Sys2Proof
end

