-- ==== Sys2Proof/Certificates/Slice0/Obligations.lean ====
section
/-! DEFINITION. The statements for the provers. Each is `def Obligations.<Name> : Prop`; its docstring
names the rule of the spec it formalises. -/

open Sys2Proof Sys2Proof.Machine

/-! ### Encoding -/

/-- 30_encoding.md R101, R102, R105, R107: decoding the message an instruction is delivered by gives that
instruction, for every value of every field, the reserved fields included. -/
def Obligations.DecodeOfEncode : Prop :=
  ∀ i : Instr, decode (encode i) = .ok i

/-- R101, R119: no bit of a host command is dropped: the instruction read from a word (and, in the formats
with a payload, from the payload) encodes back to the same word and payload. -/
def Obligations.HostWordLosesNoBit : Prop :=
  ∀ (w : Word) (p : Payload) (i : Instr), decode (.host w p) = .ok i →
    encodeWord i = w ∧ (hasPayload i = true → encodePayload i = p) ∧ isHostCommand i = true

/-- R107: the environment's event words, with their ignored bits, and that the host port takes none of
them. -/
def Obligations.EnvironmentWords : Prop :=
  ∀ (w : Word) (p : Payload) (rx : Frame),
    (opcodeOf w = 0x80 → decode (.tick w) = .ok .tick) ∧
    (opcodeOf w = 0x81 → decode (.transport w rx) = .ok (.xferDone rx)) ∧
    (opcodeOf w = 0x82 → decode (.transport w rx) = .ok (.xferFail (w.extractLsb' 0 8))) ∧
    (0x80 ≤ (opcodeOf w).toNat → (opcodeOf w).toNat ≤ 0x82 →
      decode (.host w p) = .error (.unknownOpcode (opcodeOf w)))

/-- R106: an unassigned opcode on the host port is answered with CMD_ERROR UNKNOWN_OPCODE and changes no
state; the payload beside the word is not looked at. -/
def Obligations.UnassignedOpcodeAnswered : Prop :=
  ∀ (s : State) (w : Word) (p : Payload) (rest : List Msg),
    s.inbox = .host w p :: rest → unassignedOpcode (opcodeOf w) = true →
    step s = .next { s with inbox := rest, outs := s.outs ++ [.cmdError (opcodeOf w) .unknownOpcode] }

/-- The example encodings of R117, and words of every other command whose operand fields all differ (R102,
R281-R288), each written out as its word and payload, decode to the command they stand for, field by field
by the constructor's named arguments; and lines of R117's syntax assemble to those words. -/
def Obligations.ExampleEncodings : Prop :=
  decode (.host 0x10000101 0) = .ok (.setLed 0 1 1) ∧
  decode (.host 0x11000001 0) = .ok (.setDout 0 1) ∧
  decode (.host 0x14000000 0x0000000200000001) = .ok (.setAout 0 0 2 1) ∧
  decode (.host 0x300D0007 0) = .ok (.svcRead 13 7) ∧
  decode (.host 0x310D0008 0x00000000000003E8) = .ok (.svcWrite 13 8 0 1000) ∧
  decode (.host 0x10A50F81 0) = .ok (.setLed (rsv := 0xA5) (ctrl := 0x0F) (val := 0x81)) ∧
  decode (.host 0x10000F05 0) = .ok (.setLed (rsv := 0) (ctrl := 0x0F) (val := 0x05)) ∧
  decode (.host 0x12000003 0x0000000100000002) =
    .ok (.setPwmDuty (rsv := 0) (k := 3) (num := 1) (den := 2)) ∧
  decode (.host 0x13000001 0x000003E700000064) =
    .ok (.setPwmFreq (rsv := 0) (g := 1) (num := 999) (den := 100)) ∧
  decode (.host 0x14000001 0xFFFFFFFF0000000A) =
    .ok (.setAout (rsv := 0) (c := 1) (num := 0xFFFFFFFF) (den := 10)) ∧
  decode (.host 0x20002580 0) = .ok (.setRs485Baud (baud := 9600)) ∧
  decode (.host 0x21000006 0) = .ok (.setRs485Mode (rsv := 0) (stop := 1) (parity := 2)) ∧
  decode (.host 0x22000001 0) = .ok (.setBoardCfg (rsv := 0) (ai2 := 0) (ai1 := 0) (term := 1)) ∧
  decode (.host 0x22000002 0) = .ok (.setBoardCfg (rsv := 0) (ai2 := 0) (ai1 := 1) (term := 0)) ∧
  decode (.host 0x22000004 0) = .ok (.setBoardCfg (rsv := 0) (ai2 := 1) (ai1 := 0) (term := 0)) ∧
  decode (.host 0x310D0008 0x00000001000003E8) =
    .ok (.svcWrite (slot := 13) (tag := 8) (prsv := 0x10000) (value := 1000)) ∧
  (assemble "SET_LED ctrl=1, val=1\nSET_AOUT 0, 2.0\nSVC_WRITE 13, 1000, tag=8".toList).map
      (List.map encode) =
    some [.host 0x10000101 0, .host 0x14000000 0x0000000200000001,
      .host 0x310D0008 0x00000000000003E8] ∧
  (assemble "SET_LED ctrl=0x0F, val=0x05\nSET_RS485_MODE parity=2, stop=1\nSET_BOARD_CFG term=1, ai1=I, ai2=V".toList).map
      (List.map encode) =
    some [.host 0x10000F05 0, .host 0x21000006 0, .host 0x22000003 0]

/-- R108: the word of each output event and the bytes that follow it, with the cause codes of R109 and the
origin codes of R120. -/
def Obligations.EventWords : Prop :=
  ∀ (n : Snapshot) (f : Frame) (b op : Byte) (c : BitVec 1) (t : Task) (v : Half),
    (Event.dataReady n).word = 0xC0000000 ∧
    (Event.frameError .crcMismatch f).word = 0xC1000001 ∧
    (Event.transportError b).word.toNat = 0xC2000000 + b.toNat ∧
    (Event.rangeWarning c .low).word.toNat = 0xC3000000 + c.toNat ∧
    (Event.rangeWarning c .high).word.toNat = 0xC3000002 + c.toNat ∧
    (Event.svcResolve t v).word.toNat =
      0xC4000000 + t.origin.code.toNat * 2 ^ 22 + t.slot.val * 2 ^ 16 + t.tag.toNat ∧
    (Event.svcReject t v).word.toNat =
      0xC5000000 + t.origin.code.toNat * 2 ^ 22 + t.slot.val * 2 ^ 16 + t.tag.toNat ∧
    (Event.openDone false).word = 0xC6000000 ∧
    (Event.openDone true).word = 0xC6000001 ∧
    (Event.xferReq f).word = 0xC7000000 ∧
    Event.xferRelease.word = 0xC8000000 ∧
    (∀ cause : Cause, (Event.cmdError op cause).word.toNat =
      0xC9000000 + op.toNat * 2 ^ 8 + cause.code.toNat) ∧
    [Cause.unknownOpcode, .reservedNonzero, .indexRange, .domain, .badState, .queueFull, .closed].map
      Cause.code = [0x01, 0x02, 0x03, 0x04, 0x05, 0x06, 0x07] ∧
    [Origin.host, .opened, .cfg].map Origin.code = [0, 1, 2] ∧
    (Event.dataReady n).tail = n.record ∧
    (Event.frameError .crcMismatch f).tail = f.toList ∧
    (Event.svcResolve t v).tail = [v.extractLsb' 0 8, v.extractLsb' 8 8] ∧
    (Event.svcReject t v).tail = [v.extractLsb' 0 8, v.extractLsb' 8 8] ∧
    (Event.xferReq f).tail = f.toList ∧
    (∀ e : Event, e ∈ [.transportError b, .rangeWarning c .low, .rangeWarning c .high, .openDone false,
      .openDone true, .xferRelease] → e.tail = []) ∧
    ∀ cause : Cause, (Event.cmdError op cause).tail = []

/-- R116: the 16 bytes of the snapshot record, each field read back as a number. -/
def Obligations.SnapshotRecordBytes : Prop :=
  ∀ (n : Snapshot) (byteAt : Nat → Nat), (∀ i, byteAt i = (n.record.getD i 0).toNat) →
    n.record.length = 16 ∧
    byteAt 0 = n.din.toNat ∧ byteAt 1 = n.status.toNat ∧
    byteAt 2 + 2 ^ 8 * byteAt 3 + 2 ^ 16 * byteAt 4 + 2 ^ 24 * byteAt 5 = (n.cnt.get 0).toNat ∧
    byteAt 6 + 2 ^ 8 * byteAt 7 + 2 ^ 16 * byteAt 8 + 2 ^ 24 * byteAt 9 = (n.cnt.get 1).toNat ∧
    byteAt 10 + 2 ^ 8 * byteAt 11 = (n.aiRaw.get 0).toNat ∧
    byteAt 12 + 2 ^ 8 * byteAt 13 = (n.aiRaw.get 1).toNat ∧
    byteAt 14 = (n.aiMode.get 0).toNat + 2 * (n.aiMode.get 1).toNat ∧ byteAt 15 = 0

/-- R108, R116: an output event can be read back from its word and the bytes after it. -/
def Obligations.EventBitsDetermineEvent : Prop :=
  ∀ e e' : Event, e.word = e'.word → e.tail = e'.tail → e = e'

/-! ### Reset, fetch and the shape of a step -/

/-- 70_reset_and_hazards.md R341: the reset state. -/
def Obligations.ResetValues : Prop :=
  let s := State.reset
  s.fsm = .idle ∧ s.dly = 0 ∧ s.ledCtrl = 0 ∧ s.ledVal = 0 ∧ s.dout = 0 ∧
  (∀ k : Fin 4, s.dutyCode.get k = 0) ∧ (∀ g : Fin 2, s.pwmDiv.get g = 0) ∧
  (∀ c : Fin 2, s.dacCode.get c = 0) ∧ s.baudReg = s.par.initBaudReg ∧
  s.parity = 0 ∧ s.stop = 0 ∧ s.term = 0 ∧ (∀ c : Fin 2, s.aiMode.get c = 0) ∧
  (∀ i : SlotIdx, s.slotValue i = 0xFFFF) ∧ s.queue = [] ∧ s.inflightV = false ∧
  s.openRem = 0 ∧ s.openRej = false ∧
  s.snap.din = 0 ∧ (∀ c : Fin 2, s.snap.cnt.get c = 0 ∧ s.snap.aiRaw.get c = 0 ∧ s.snap.aiMode.get c = 0) ∧
  s.snap.status = 0 ∧ s.snapV = false ∧ (∀ i : Fin 26, s.tx.get i = 0)

/-- 00_scope.md R14, 20_memory.md R92: a step takes the next input off the inbox and, when it decodes to an
instruction, is `exec` of that instruction on the state without it. -/
def Obligations.StepRunsDecoded : Prop :=
  ∀ (s : State) (m : Msg) (rest : List Msg) (i : Instr),
    s.inbox = m :: rest → decode m = .ok i → step s = exec i { s with inbox := rest }

/-- With no input left, the internal step runs exactly in BUILD (R14); elsewhere the block waits unchanged
(the model's choice for the empty inbox, notes/assumptions/1.md). -/
def Obligations.StepWithoutInput : Prop :=
  ∀ s : State, s.inbox = [] →
    (s.fsm = .build → step s = exec .buildStep s) ∧ (s.fsm ≠ .build → step s = .next s)

/-- R54, 20_memory.md R92, R95: a step writes no parameter, consumes at most the next input, and only
appends to the output. -/
def Obligations.StepAppendsOutput : Prop :=
  ∀ s t : State, step s = .next t →
    t.par = s.par ∧ t.inbox = s.inbox.tail ∧ ∃ evs, t.outs = s.outs ++ evs

/-! ### The output registers and settings -/

/-- 45_host_commands.md R281; a value bit of a channel not under manual control is stored but not sent. -/
def Obligations.SetLedResult : Prop :=
  ∀ (rsv ctrl val : BitVec 8) (s : State),
    (rsv = 0 → ∃ t, t = { s with ledCtrl := ctrl, ledVal := val } ∧
      exec (.setLed rsv ctrl val) s = .next t ∧
      rd8 (encodeFrame t) 5 = ctrl ∧ rd8 (encodeFrame t) 6 = val &&& ctrl) ∧
    (rsv ≠ 0 → exec (.setLed rsv ctrl val) s = .next (s.answered [.cmdError 0x10 .reservedNonzero]))

/-- R282, and the byte the frame carries for it. -/
def Obligations.SetDoutResult : Prop :=
  ∀ (rsv : BitVec 20) (mask : BitVec 4) (s : State),
    (rsv = 0 → ∃ t, t = { s with dout := mask } ∧ exec (.setDout rsv mask) s = .next t ∧
      (rd8 (encodeFrame t) 7).toNat = mask.toNat) ∧
    (rsv ≠ 0 → exec (.setDout rsv mask) s = .next (s.answered [.cmdError 0x11 .reservedNonzero]))

/-- R283 with the quantisation of 41_conversion.md R172 in integers: the checks in their order, then the
duty code of the one sub-channel. -/
def Obligations.SetPwmDutyResult : Prop :=
  ∀ (rsv : BitVec 20) (k : BitVec 4) (num den : Word) (s : State),
    (rsv ≠ 0 →
      exec (.setPwmDuty rsv k num den) s = .next (s.answered [.cmdError 0x12 .reservedNonzero])) ∧
    (rsv = 0 → 3 < k.toNat →
      exec (.setPwmDuty rsv k num den) s = .next (s.answered [.cmdError 0x12 .indexRange])) ∧
    (rsv = 0 → k.toNat ≤ 3 → (den = 0 ∨ num.toInt < 0 ∨ (den.toNat : Int) < num.toInt) →
      exec (.setPwmDuty rsv k num den) s = .next (s.answered [.cmdError 0x12 .domain])) ∧
    (rsv = 0 → k.toNat ≤ 3 → den ≠ 0 → 0 ≤ num.toInt → num.toInt ≤ den.toNat →
      exec (.setPwmDuty rsv k num den) s = .next { s with
        dutyCode := s.dutyCode.setIfInBounds k.toNat
          (BitVec.ofNat 16 (65535 * num.toNat / den.toNat)) })

/-- R284 with the mapping of 41_conversion.md R170 in integers (`floor(K / f) = (K × den) div num`). -/
def Obligations.SetPwmFreqResult : Prop :=
  ∀ (rsv : BitVec 20) (g : BitVec 4) (num den : Word) (s : State),
    (rsv ≠ 0 →
      exec (.setPwmFreq rsv g num den) s = .next (s.answered [.cmdError 0x13 .reservedNonzero])) ∧
    (rsv = 0 → 1 < g.toNat →
      exec (.setPwmFreq rsv g num den) s = .next (s.answered [.cmdError 0x13 .indexRange])) ∧
    (rsv = 0 → g.toNat ≤ 1 → den = 0 →
      exec (.setPwmFreq rsv g num den) s = .next (s.answered [.cmdError 0x13 .domain])) ∧
    (rsv = 0 → g.toNat ≤ 1 → den ≠ 0 →
      exec (.setPwmFreq rsv g num den) s = .next { s with
        pwmDiv := s.pwmDiv.setIfInBounds g.toNat (BitVec.ofNat 16 (
          let n := num.toNat
          let d := den.toNat
          if num.toInt < d then 0
          else if n < 10 * d then 3 + (62500 * d / n &&& 0xFFFC)
          else if n < 100 * d then 2 + (500000 * d / n &&& 0xFFFC)
          else if n < 1000 * d then 1 + (4000000 * d / n &&& 0xFFFC)
          else if n < 100000 * d then 32000000 * d / n &&& 0xFFFC
          else 0)) })

/-- R285 with the code of 41_conversion.md R173 in integers, and 60_exceptions.md R306: a value out of range
is clamped, stored and warned about. -/
def Obligations.SetAoutResult : Prop :=
  ∀ (rsv : BitVec 20) (c : BitVec 4) (num den : Word) (s : State),
    (rsv ≠ 0 →
      exec (.setAout rsv c num den) s = .next (s.answered [.cmdError 0x14 .reservedNonzero])) ∧
    (rsv = 0 → 1 < c.toNat →
      exec (.setAout rsv c num den) s = .next (s.answered [.cmdError 0x14 .indexRange])) ∧
    (rsv = 0 → c.toNat ≤ 1 → den = 0 →
      exec (.setAout rsv c num den) s = .next (s.answered [.cmdError 0x14 .domain])) ∧
    (rsv = 0 → c.toNat ≤ 1 → den ≠ 0 → (10 * den.toNat : Int) ≤ num.toInt →
      exec (.setAout rsv c num den) s = .next { s with
        dacCode := s.dacCode.setIfInBounds c.toNat 4095
        outs := s.outs ++ [.rangeWarning (BitVec.ofNat 1 c.toNat) .high] }) ∧
    (rsv = 0 → c.toNat ≤ 1 → den ≠ 0 → num.toInt < 0 →
      exec (.setAout rsv c num den) s = .next { s with
        dacCode := s.dacCode.setIfInBounds c.toNat 0
        outs := s.outs ++ [.rangeWarning (BitVec.ofNat 1 c.toNat) .low] }) ∧
    (rsv = 0 → c.toNat ≤ 1 → den ≠ 0 → 0 ≤ num.toInt → num.toInt < (10 * den.toNat : Int) →
      exec (.setAout rsv c num den) s = .next { s with
        dacCode := s.dacCode.setIfInBounds c.toNat
          (BitVec.ofNat 16 (4095 * num.toNat / (10 * den.toNat))) })

/-- 30_encoding.md R104: payloads with the same quotient give the same result, in each of the three
commands that take a rational. -/
def Obligations.EqualQuotientsAgree : Prop :=
  ∀ (rsv : BitVec 20) (k : BitVec 4) (num den num' den' : Word) (s : State),
    den ≠ 0 → den' ≠ 0 → num.toInt * den'.toNat = num'.toInt * den.toNat →
    exec (.setPwmDuty rsv k num den) s = exec (.setPwmDuty rsv k num' den') s ∧
    exec (.setPwmFreq rsv k num den) s = exec (.setPwmFreq rsv k num' den') s ∧
    exec (.setAout rsv k num den) s = exec (.setAout rsv k num' den') s

/-- R286. -/
def Obligations.SetBaudResult : Prop :=
  ∀ (baud : BitVec 24) (s : State),
    ((baud = 0 ∨ baud.toNat % 100 ≠ 0 ∨ 65535 < baud.toNat / 100) →
      exec (.setRs485Baud baud) s = .next (s.answered [.cmdError 0x20 .domain])) ∧
    (baud ≠ 0 → baud.toNat % 100 = 0 → baud.toNat / 100 ≤ 65535 →
      ∃ v : Half, v.toNat * 100 = baud.toNat ∧
        exec (.setRs485Baud baud) s = .next { s with baudReg := v })

/-- R287: both codes are stored whatever they are, and the mode word carries them. -/
def Obligations.SetModeResult : Prop :=
  ∀ (rsv : BitVec 20) (stop parity : BitVec 2) (s : State),
    (rsv = 0 →
      exec (.setRs485Mode rsv stop parity) s = .next { s with parity := parity, stop := stop } ∧
      (modeWord { s with parity := parity, stop := stop }).toNat =
        stop.toNat * 32 + parity.toNat * 8 + s.par.databits8Code.toNat) ∧
    (rsv ≠ 0 →
      exec (.setRs485Mode rsv stop parity) s = .next (s.answered [.cmdError 0x21 .reservedNonzero]))

/-- R288: the three bits are stored, BOARD_WORD's bits 2:0 equal the command's, and a reply is decoded with
the new modes at once. -/
def Obligations.SetBoardResult : Prop :=
  ∀ (rsv : BitVec 21) (ai2 ai1 term : BitVec 1) (s : State),
    (rsv = 0 → ∃ t, exec (.setBoardCfg rsv ai2 ai1 term) s = .next t ∧
      t = { s with term := term, aiMode := #v[ai1, ai2] } ∧
      boardWord t = (encodeWord (.setBoardCfg 0 ai2 ai1 term)).extractLsb' 0 16 ∧
      (∀ rx, t.fsm = .xfer → crcValidate rx.toList = true →
        ∃ u, exec (.xferDone rx) t = .next u ∧ u.snap.aiMode = #v[ai1, ai2])) ∧
    (rsv ≠ 0 →
      exec (.setBoardCfg rsv ai2 ai1 term) s = .next (s.answered [.cmdError 0x22 .reservedNonzero]))

/-- 10_state.md R44, R41: the nineteen device addresses in slot order, each of at most 13 bits, the slots of
the three derived words, and the derived words, field by field. -/
def Obligations.DerivedWordLayout : Prop :=
  slotAddrs = #v[0x0000, 0x0001, 0x0002, 0x0003, 0x0004, 0x0005, 0x0006, 0x0007, 0x0008, 0x0014, 0x0015,
    0x0018, 0x0019, 0x100F, 0x1010, 0x1011, 0x100A, 0x1024, 0x1025] ∧
  (∀ i : SlotIdx, slotAddr i = slotAddrs.get i ∧ slotAddr i &&& 0x1FFF = slotAddr i) ∧
  slotBaud = 14 ∧ slotMode = 15 ∧ slotBoard = 16 ∧
  ∀ s : State,
    baudWord s = s.baudReg ∧
    (modeWord s).extractLsb' 0 3 = s.par.databits8Code ∧ (modeWord s).extractLsb' 3 2 = s.parity ∧
    (modeWord s).extractLsb' 5 2 = s.stop ∧ (modeWord s).extractLsb' 7 9 = 0 ∧
    (boardWord s).extractLsb' 0 1 = s.term ∧ (boardWord s).extractLsb' 1 1 = s.aiMode.get 0 ∧
    (boardWord s).extractLsb' 2 1 = s.aiMode.get 1 ∧ (boardWord s).extractLsb' 3 13 = 0

/-- R289: a SET_* command is accepted alike in every `s.fsm`, and touches neither the sequencing, the
queue, a slot, the in-flight task, the open bookkeeping, the snapshot nor the frame buffer. -/
def Obligations.SetCommandsStateIndependent : Prop :=
  ∀ (i : Instr) (s : State), isSetCommand i = true →
    ∃ t, exec i s = .next t ∧
      t.fsm = s.fsm ∧ t.dly = s.dly ∧ t.queue = s.queue ∧ t.slotVal = s.slotVal ∧
      t.inflightV = s.inflightV ∧ t.inflight = s.inflight ∧ t.openRem = s.openRem ∧ t.openRej = s.openRej ∧
      t.snap = s.snap ∧ t.snapV = s.snapV ∧ t.tx = s.tx ∧
      ∀ f : Fsm, exec i { s with fsm := f } = .next { t with fsm := f }

/-- R280, 60_exceptions.md R300, R307: every host command ends in a next state, and one that is refused
changes nothing and emits exactly one CMD_ERROR, which carries its own opcode. -/
def Obligations.RefusedCommandChangesNothing : Prop :=
  ∀ (i : Instr) (s : State), isHostCommand i = true →
    ∃ t, exec i s = .next t ∧
      ∀ op cause, Event.cmdError op cause ∈ newOuts s t →
        op = opcodeOf (encodeWord i) ∧ t = s.answered [.cmdError op cause]

/-- R280, checks 2 to 4: an ill-formed host command is refused, whatever the state, with a cause of those
checks, and a well-formed one is refused only for the state's sake (checks 5 and 6). -/
def Obligations.IllFormedCommandRefused : Prop :=
  ∀ (i : Instr) (s : State), isHostCommand i = true →
    (i.wellFormed = false → ∃ cause, cause ∈ [Cause.reservedNonzero, .indexRange, .domain] ∧
      exec i s = .next (s.answered [.cmdError (opcodeOf (encodeWord i)) cause])) ∧
    (i.wellFormed = true → ∀ t op cause, exec i s = .next t → Event.cmdError op cause ∈ newOuts s t →
      cause ∈ [Cause.badState, .closed, .queueFull])

/-! ### Service requests -/

/-- 43_service_queue.md R229. -/
def Obligations.SvcReadResult : Prop :=
  ∀ (slot : BitVec 8) (tag : Half) (s : State),
    (18 < slot.toNat →
      exec (.svcRead slot tag) s = .next (s.answered [.cmdError 0x30 .indexRange])) ∧
    (slot.toNat ≤ 18 → s.fsm = .closed →
      exec (.svcRead slot tag) s = .next (s.answered [.cmdError 0x30 .closed])) ∧
    (slot.toNat ≤ 18 → s.fsm ≠ .closed → s.qlen = s.par.qDepth →
      exec (.svcRead slot tag) s = .next (s.answered [.cmdError 0x30 .queueFull])) ∧
    (∀ h : slot.toNat < 19, s.fsm ≠ .closed → s.qlen ≠ s.par.qDepth →
      exec (.svcRead slot tag) s = .next { s with
        queue := s.queue ++ [{ slot := ⟨slot.toNat, h⟩, origin := .host, tag := tag }] })

/-- R230: a refused SVC_WRITE leaves the slot value unchanged. -/
def Obligations.SvcWriteResult : Prop :=
  ∀ (slot : BitVec 8) (tag : Half) (prsv : BitVec 48) (value : Half) (s : State),
    (prsv ≠ 0 →
      exec (.svcWrite slot tag prsv value) s = .next (s.answered [.cmdError 0x31 .reservedNonzero])) ∧
    (prsv = 0 → 18 < slot.toNat →
      exec (.svcWrite slot tag prsv value) s = .next (s.answered [.cmdError 0x31 .indexRange])) ∧
    (prsv = 0 → slot.toNat ≤ 18 → s.fsm = .closed →
      exec (.svcWrite slot tag prsv value) s = .next (s.answered [.cmdError 0x31 .closed])) ∧
    (prsv = 0 → slot.toNat ≤ 18 → s.fsm ≠ .closed → s.qlen = s.par.qDepth →
      exec (.svcWrite slot tag prsv value) s = .next (s.answered [.cmdError 0x31 .queueFull])) ∧
    (prsv = 0 → ∀ h : slot.toNat < 19, s.fsm ≠ .closed → s.qlen ≠ s.par.qDepth →
      exec (.svcWrite slot tag prsv value) s = .next { s with
        slotVal := s.slotVal.set slot.toNat value h
        queue := s.queue ++ [{ slot := ⟨slot.toNat, h⟩, origin := .host, tag := tag }] })

/-- R222: which task ADMIT puts in flight, in either order, and that it waits for a task in flight. -/
def Obligations.AdmitResult : Prop :=
  ∀ (s : State) (t : Task) (rest : List Task),
    (s.inflightV = false → s.par.admitOrder = .fifo → s.queue = t :: rest →
      admitNext s = { s with inflightV := true, inflight := t, queue := rest }) ∧
    (s.inflightV = false → s.par.admitOrder = .lifo → s.queue = rest ++ [t] →
      admitNext s = { s with inflightV := true, inflight := t, queue := rest }) ∧
    (s.inflightV = true → admitNext s = s) ∧
    (s.queue = [] → admitNext s = s)

/-- R228: of the derived slots whose value differs from its word, in the order 14, 15, 16, as many as the
queue has room for take their words and are queued as CFG tasks; nothing else changes. The premise is part
of the invariant (10_state.md R45). -/
def Obligations.CfgRefreshResult : Prop :=
  ∀ (s : State) (pushed : List (SlotIdx × Half)), s.QueueFits →
    pushed = (([(14, baudWord s), (15, modeWord s), (16, boardWord s)] : List (SlotIdx × Half)).filter
      fun p => s.slotValue p.1 != p.2).take (s.par.qDepth - s.qlen) →
    cfgRefresh s = { s with
      slotVal := pushed.foldl (fun v p => v.set p.1.val p.2 p.1.isLt) s.slotVal
      queue := s.queue ++ pushed.map fun p =>
        { slot := p.1, origin := .cfg, tag := BitVec.ofNat 16 p.1.val } }

/-- R220, R347: a task in flight stays in flight until a step completes it, and only BUILD_STEP puts a task
in flight, when none was. -/
def Obligations.InFlightHeldUntilCompleted : Prop :=
  ∀ s t : State, step s = .next t →
    (∀ x, s.inflightTask = some x →
      t.inflightTask = some x ∨ (t.inflightV = false ∧ (newOuts s t).filterMap Event.completes = [x])) ∧
    (∀ x, s.inflightV = false → t.inflightTask = some x → s.fsm = .build ∧ t.fsm = .xfer)

/-- R231: a step emits at most one completion, of the task that was in flight, and then none is in flight. -/
def Obligations.NoDoubleResolution : Prop :=
  ∀ s t : State, step s = .next t →
    (newOuts s t).filterMap Event.completes = [] ∨
    ∃ x, s.inflightTask = some x ∧ t.inflightV = false ∧ (newOuts s t).filterMap Event.completes = [x]

/-! ### The scheduler -/

/-- 44_scheduler.md R251: the checks in their order, then one OPEN task for each slot behind the queue. -/
def Obligations.OpenResult : Prop :=
  ∀ (rsv : BitVec 24) (s : State),
    (rsv ≠ 0 → exec (.openCmd rsv) s = .next (s.answered [.cmdError 0x01 .reservedNonzero])) ∧
    (rsv = 0 → s.fsm ≠ .idle →
      exec (.openCmd rsv) s = .next (s.answered [.cmdError 0x01 .badState])) ∧
    (rsv = 0 → s.fsm = .idle → (s.par.qDepth : Int) - s.qlen < 19 →
      exec (.openCmd rsv) s = .next (s.answered [.cmdError 0x01 .queueFull])) ∧
    (rsv = 0 → s.fsm = .idle → 19 ≤ (s.par.qDepth : Int) - s.qlen →
      exec (.openCmd rsv) s = .next { s with
        fsm := .build, openRem := 19, openRej := false
        queue := s.queue ++ List.ofFn fun i : Fin 19 =>
          { slot := i, origin := .opened, tag := BitVec.ofNat 16 i.val } })

/-- R252: the handle is released unless the block was idle; nothing else is touched. -/
def Obligations.CloseResult : Prop :=
  ∀ (rsv : BitVec 24) (s : State),
    (rsv ≠ 0 → exec (.closeCmd rsv) s = .next (s.answered [.cmdError 0x02 .reservedNonzero])) ∧
    (rsv = 0 → s.fsm = .closed →
      exec (.closeCmd rsv) s = .next (s.answered [.cmdError 0x02 .badState])) ∧
    (rsv = 0 → s.fsm ≠ .closed →
      exec (.closeCmd rsv) s = .next { s with
        fsm := .closed, dly := 0
        outs := s.outs ++ (if s.fsm = .idle then [] else [.xferRelease]) })

/-- R253: in BUILD, the refresh, the admission, the frame of the state they leave, and one XFER_REQ. Outside
BUILD the spec says only that the step is not enabled (R250); that the model answers it with a fault is the
model's choice, notes/assumptions/4.md (DEDUCED). -/
def Obligations.BuildStepResult : Prop :=
  ∀ s : State,
    (s.fsm = .build → ∃ f, f = encodeFrame (admitNext (cfgRefresh s)) ∧
      exec .buildStep s = .next { s with
        fsm := .xfer, tx := f, outs := s.outs ++ [.xferReq f]
        queue := (admitNext (cfgRefresh s)).queue, 
        inflightV := (admitNext (cfgRefresh s)).inflightV, inflight := (admitNext (cfgRefresh s)).inflight
        slotVal := (cfgRefresh s).slotVal }) ∧
    (s.fsm ≠ .build → exec .buildStep s = .fault .buildStepNotEnabled)

/-- 20_memory.md R94, 42_frame_codec.md R191: the frame a BUILD_STEP sends carries the output registers as
they stand at that step, and the value and address of the slot whose task is in flight after it. -/
def Obligations.BuildStepSamplesOutputs : Prop :=
  ∀ s t : State, exec .buildStep s = .next t →
    rd8 t.tx 5 = s.ledCtrl ∧ rd8 t.tx 6 = s.ledVal &&& s.ledCtrl ∧ rd8 t.tx 7 = s.dout.setWidth 8 ∧
    rd16le t.tx 8 = s.pwmDiv.get 0 ∧ rd16le t.tx 16 = s.pwmDiv.get 1 ∧
    rd16le t.tx 10 = s.dutyCode.get 0 ∧ rd16le t.tx 12 = s.dutyCode.get 1 ∧
    rd16le t.tx 14 = s.dutyCode.get 2 ∧ rd16le t.tx 18 = s.dutyCode.get 3 ∧
    rd16le t.tx 20 = s.dacCode.get 0 ∧ rd16le t.tx 22 = s.dacCode.get 1 ∧
    (∀ x, t.inflightTask = some x →
      rd16le t.tx 0 = t.slotValue x.slot ∧ rd16le t.tx 2 = slotAddr x.slot) ∧
    (t.inflightV = false → rd16le t.tx 0 = 0 ∧ rd16le t.tx 2 = 0)

/-- R257, R258. -/
def Obligations.TickResult : Prop :=
  ∀ s : State,
    (s.fsm = .wait → exec .tick s =
      .next { s with dly := s.dly - 1, fsm := if s.dly = 1 then .build else .wait }) ∧
    (s.fsm ≠ .wait → exec .tick s = .next s)

/-- R257, 60_exceptions.md R313: from WAIT with `n` ticks to wait, the next cycle starts at exactly the
`n`-th TICK. -/
def Obligations.TicksStartNextCycle : Prop :=
  ∀ (n : Nat) (s : State) (rest : List Msg),
    s.fsm = .wait → s.dly.toNat = n + 1 → s.inbox = List.replicate (n + 1) (encode .tick) ++ rest →
    Sys2Proof.core.run n s =
      .next { s with dly := 1, inbox := encode .tick :: rest } ∧
    Sys2Proof.core.run (n + 1) s = .next { s with fsm := .build, dly := 0, inbox := rest }

/-- R255, R256, R258, 60_exceptions.md R304. -/
def Obligations.XferFailResult : Prop :=
  ∀ (reason : Byte) (s : State),
    (s.fsm = .xfer →
      (0 < s.qlen ∨ (s.par.delayCountsInflight = true ∧ s.inflightV = true)) →
      exec (.xferFail reason) s = .next { s with
        fsm := .build, outs := s.outs ++ [.transportError reason] }) ∧
    (s.fsm = .xfer → s.qlen = 0 → (s.par.delayCountsInflight = false ∨ s.inflightV = false) →
      exec (.xferFail reason) s = .next { s with
        fsm := .wait, dly := s.par.periodTicks, outs := s.outs ++ [.transportError reason] }) ∧
    (s.fsm ≠ .xfer → exec (.xferFail reason) s = .next s)

/-- R254, R256, 42_frame_codec.md R200, 60_exceptions.md R302 (Invariant I2): a reply whose CRC fails changes
no snapshot, slot, queue or in-flight task; only FRAME_ERROR and the schedule follow. Outside XFER a reply
is ignored (R258). -/
def Obligations.CrcFailureDiscardsReply : Prop :=
  ∀ (rx : Frame) (s : State) (more : Bool),
    (more = true ↔ (0 < s.qlen ∨ (s.par.delayCountsInflight = true ∧ s.inflightV = true))) →
    (s.fsm = .xfer → crcValidate rx.toList = false →
      exec (.xferDone rx) s = .next { s with
        fsm := if more then .build else .wait
        dly := if more then s.dly else s.par.periodTicks
        outs := s.outs ++ [.frameError .crcMismatch rx] }) ∧
    (s.fsm ≠ .xfer → exec (.xferDone rx) s = .next s)

/-- R224, R225, R227, R254, R256: a valid reply that echoes the in-flight task's address: the slot takes the
echoed value, the task is resolved or rejected, the open bookkeeping counts it if OPEN made it, and
DATA_READY follows. -/
def Obligations.MatchedReplyResult : Prop :=
  ∀ (rx : Frame) (s : State) (t : Task),
    s.fsm = .xfer → crcValidate rx.toList = true → s.inflightTask = some t →
    (rd16le rx 2).extractLsb' 0 13 = (slotAddr t.slot).extractLsb' 0 13 →
    ∀ (v : Half) (err : Bool) (sn : Snapshot),
      v = rd16le rx 0 → err = (rd16le rx 2).getLsbD 13 →
      sn = { din := (rd8 rx 7).extractLsb' 0 4, cnt := #v[rd32le rx 8, rd32le rx 12]
             aiRaw := #v[rd16le rx 20, rd16le rx 22], aiMode := s.aiMode, status := rd8 rx 4 } →
      exec (.xferDone rx) s = .next { s with
        snap := sn, snapV := true, inflightV := false
        slotVal := s.slotVal.set t.slot.val v t.slot.isLt
        openRem := if t.origin = .opened then s.openRem - 1 else s.openRem
        openRej := if t.origin = .opened then s.openRej || err else s.openRej
        fsm := if 0 < s.qlen then .build else .wait
        dly := if 0 < s.qlen then s.dly else s.par.periodTicks
        outs := s.outs ++ [if err then .svcReject t v else .svcResolve t v]
          ++ (if t.origin = .opened ∧ s.openRem = 1 then [.openDone (s.openRej || err)] else [])
          ++ [.dataReady sn] }

/-- R224, R226, R254, 60_exceptions.md R305: a valid reply whose echo does not match, or with no task in
flight, publishes its snapshot and completes nothing; the error bit is ignored. -/
def Obligations.UnmatchedReplyResult : Prop :=
  ∀ (rx : Frame) (s : State) (sn : Snapshot) (more : Bool),
    s.fsm = .xfer → crcValidate rx.toList = true →
    (∀ t, s.inflightTask = some t →
      ((rd16le rx 2).extractLsb' 0 13).toNat ≠ (slotAddr t.slot).toNat) →
    sn = { din := (rd8 rx 7).extractLsb' 0 4, cnt := #v[rd32le rx 8, rd32le rx 12]
           aiRaw := #v[rd16le rx 20, rd16le rx 22], aiMode := s.aiMode, status := rd8 rx 4 } →
    (more = true ↔ (0 < s.qlen ∨ (s.par.delayCountsInflight = true ∧ s.inflightV = true))) →
    exec (.xferDone rx) s = .next { s with
      snap := sn, snapV := true
      fsm := if more then .build else .wait
      dly := if more then s.dly else s.par.periodTicks
      outs := s.outs ++ [.dataReady sn] }

/-- R260: the cadence after every answer of the transport, with `DELAY_COUNTS_INFLIGHT = false`. -/
def Obligations.CadenceAfterAnswer : Prop :=
  ∀ (i : Instr) (s : State), s.fsm = .xfer → s.par.delayCountsInflight = false →
    ((∃ rx, i = .xferDone rx) ∨ ∃ r, i = .xferFail r) →
    ∃ t, exec i s = .next t ∧
      (0 < t.qlen → t.fsm = .build) ∧ (t.qlen = 0 → t.fsm = .wait ∧ t.dly = t.par.periodTicks)

/-- R254, 20_memory.md R95, 60_exceptions.md R308: what an answered exchange emits, in order. -/
def Obligations.CompletionBeforeDataReady : Prop :=
  ∀ (rx : Frame) (s : State), s.fsm = .xfer →
    ∃ t, exec (.xferDone rx) s = .next t ∧
      ((crcValidate rx.toList = false ∧ newOuts s t = [.frameError .crcMismatch rx]) ∨
       (crcValidate rx.toList = true ∧ ∃ c d, newOuts s t = c ++ d ++ [.dataReady t.snap] ∧
         (c = [] ∨ ∃ x v, c = [.svcResolve x v] ∨ c = [.svcReject x v]) ∧
         (d = [] ∨ (c ≠ [] ∧ ∃ b, d = [.openDone b]))))

/-- R259: XFER_REQ is emitted only on entry to XFER and carries `s.tx`; XFER is entered only from BUILD,
and left only by the transport's answer or by CLOSE. -/
def Obligations.OneExchangeAtATime : Prop :=
  ∀ s t : State, step s = .next t →
    (∀ f, Event.xferReq f ∈ newOuts s t → s.fsm = .build ∧ t.fsm = .xfer ∧ f = t.tx) ∧
    (s.fsm ≠ .xfer → t.fsm = .xfer → s.fsm = .build ∧ newOuts s t = [.xferReq t.tx]) ∧
    (s.fsm = .xfer → t.fsm ≠ .xfer → ∃ m rest i, s.inbox = m :: rest ∧ decode m = .ok i ∧
      ((∃ rx, i = .xferDone rx) ∨ (∃ r, i = .xferFail r) ∨ i = .closeCmd 0))

/-- R252, 60_exceptions.md R318, 70_reset_and_hazards.md R340, R348: no step leaves CLOSED; queued and
in-flight tasks stay as they are and complete never, and no exchange is requested. -/
def Obligations.ClosedIsTerminal : Prop :=
  ∀ s t : State, s.fsm = .closed → step s = .next t →
    t.fsm = .closed ∧ t.dly = s.dly ∧ t.queue = s.queue ∧ t.inflightV = s.inflightV ∧ t.inflight = s.inflight ∧
    t.slotVal = s.slotVal ∧ t.openRem = s.openRem ∧ t.openRej = s.openRej ∧
    t.snap = s.snap ∧ t.snapV = s.snapV ∧ t.tx = s.tx ∧
    ∀ e ∈ newOuts s t, (∃ op c, e = .cmdError op c) ∨ ∃ c side, e = .rangeWarning c side

/-- 10_state.md R43, R47, R49, R51: who writes the slot values, the snapshot, the frame buffer, and the
in-flight register and its valid bit: set by ADMIT, cleared by COMPLETE. -/
def Obligations.WritersOfSharedState : Prop :=
  ∀ (i : Instr) (s t : State), exec i s = .next t →
    (t.slotVal ≠ s.slotVal →
      i = .buildStep ∨ (∃ rx, i = .xferDone rx ∧ crcValidate rx.toList = true) ∨
      ∃ sl tag v, i = .svcWrite sl tag 0 v) ∧
    ((t.snap ≠ s.snap ∨ t.snapV ≠ s.snapV) →
      ∃ rx, i = .xferDone rx ∧ crcValidate rx.toList = true) ∧
    (t.tx ≠ s.tx → i = .buildStep) ∧
    (t.inflight ≠ s.inflight → i = .buildStep ∧ s.inflightV = false ∧ t.inflightV = true) ∧
    (s.inflightV = false → t.inflightV = true → i = .buildStep) ∧
    (s.inflightV = true → t.inflightV = false → ∃ rx, i = .xferDone rx ∧ crcValidate rx.toList = true ∧
      (rd16le rx 2).extractLsb' 0 13 = (slotAddr s.inflight.slot).extractLsb' 0 13)

/-! ### The invariant -/

/-- 10_state.md R33, R37, R38, R45, R48, R50, R51, 30_encoding.md R120: every step keeps the invariant. -/
def Obligations.StepKeepsInvariant : Prop :=
  ∀ s t : State, s.Inv → step s = .next t → t.Inv

/-- The reset state has the invariant. That its baud setting is legal rests on the bound of INIT_BAUD_REG,
notes/assumptions/12.md (DEDUCED). -/
def Obligations.ResetHasInvariant : Prop := State.reset.Inv

/-! ### CRC -/

/-- 40_crc.md R151-R154: the engine on the spec's own examples. -/
def Obligations.CrcExamples : Prop :=
  crcStep 0x0000 = 0x0000 ∧ crcStep 0x0001 = 0xA001 ∧ crcStep 0xFFFE = 0x7FFF ∧
  crcByte 0xFFFF 0x01 = 0x807E ∧ crcCompute [] = 0xFFFF ∧
  crcCompute [0x31, 0x32, 0x33, 0x34, 0x35, 0x36, 0x37, 0x38, 0x39] = 0x4B37

/-- R157: the byte-table form of CRC_BYTE, with the table entries the rule gives. -/
def Obligations.CrcTableForm : Prop :=
  (∀ (r : Half) (b : Byte),
    crcByte r b = (r >>> 8) ^^^ crcTable ((r ^^^ b.setWidth 16).extractLsb' 0 8)) ∧
  crcTable 0x00 = 0x0000 ∧ crcTable 0x01 = 0xC0C1 ∧ crcTable 0x02 = 0xC181 ∧ crcTable 0x03 = 0x0140 ∧
  crcTable 0x80 = 0xA001 ∧ crcTable 0xFF = 0x4040

/-- R156: the residue property, and that a frame is valid exactly when the CRC over all its 26 bytes is 0. -/
def Obligations.CrcResidue : Prop :=
  (∀ bs : List Byte,
    crcCompute (bs ++ [(crcCompute bs).extractLsb' 0 8, (crcCompute bs).extractLsb' 8 8]) = 0) ∧
  (∀ f : Frame, crcValidate f.toList = true ↔ crcCompute f.toList = 0)

/-- R154: an error confined to one byte of a valid frame (so every single-bit error) is detected. -/
def Obligations.SingleByteErrorDetected : Prop :=
  ∀ (f : Frame) (i : Fin 26) (b : Byte),
    crcValidate f.toList = true → b ≠ f.get i → crcValidate (f.set i.val b i.isLt).toList = false

/-! ### The frame codec -/

/-- 42_frame_codec.md R190-R198, 30_encoding.md R110: each field of the outbound frame, read back, and the
frame of the reset state. -/
def Obligations.OutboundFrameFields : Prop :=
  (encodeFrame State.reset).toList = List.replicate 24 0 ++ [0x7A, 0xF7] ∧
  ∀ (s : State) (f : Frame), f = encodeFrame s →
    (s.inflightV = false → rd16le f 0 = 0 ∧ rd16le f 2 = 0) ∧
    (∀ t, s.inflightTask = some t → rd16le f 0 = s.slotValue t.slot ∧ rd16le f 2 = slotAddr t.slot) ∧
    rd8 f 4 = 0 ∧ rd8 f 5 = s.ledCtrl ∧ rd8 f 6 = s.ledVal &&& s.ledCtrl ∧
    rd8 f 7 = s.dout.setWidth 8 ∧ rd16le f 8 = s.pwmDiv.get 0 ∧ rd16le f 10 = s.dutyCode.get 0 ∧
    rd16le f 12 = s.dutyCode.get 1 ∧ rd16le f 14 = s.dutyCode.get 2 ∧ rd16le f 16 = s.pwmDiv.get 1 ∧
    rd16le f 18 = s.dutyCode.get 3 ∧ rd16le f 20 = s.dacCode.get 0 ∧ rd16le f 22 = s.dacCode.get 1 ∧
    rd16le f 24 = crcCompute (f.toList.take 24)

/-- 40_crc.md R155, 20_memory.md R82: a frame the block sends passes the check a reply must pass. -/
def Obligations.OutboundFrameValid : Prop :=
  ∀ s : State, crcValidate (encodeFrame s).toList = true

/-- 42_frame_codec.md R199-R206: the decoder's fields, and none at all when the CRC fails. -/
def Obligations.InboundFrameFields : Prop :=
  ∀ (rx : Frame) (m : Vector (BitVec 1) 2),
    (crcValidate rx.toList = false → decodeFrame rx m = none) ∧
    (crcValidate rx.toList = true → ∃ d, decodeFrame rx m = some d ∧
      d.echoValue.toNat = (rx.get 0).toNat + 256 * (rx.get 1).toNat ∧
      d.echoAddr.toNat = ((rx.get 2).toNat + 256 * (rx.get 3).toNat) % 8192 ∧
      (d.echoErr = true ↔ (rx.get 3).toNat / 32 % 2 = 1) ∧
      d.status = rx.get 4 ∧ d.din.toNat = (rx.get 7).toNat % 16 ∧
      d.snapshot.counter 0 = (rx.get 11 ++ rx.get 10 ++ rx.get 9 ++ rx.get 8).toInt ∧
      d.snapshot.counter 1 = (rx.get 15 ++ rx.get 14 ++ rx.get 13 ++ rx.get 12).toInt ∧
      (d.aiRaw.get 0).toNat = (rx.get 20).toNat + 256 * (rx.get 21).toNat ∧
      (d.aiRaw.get 1).toNat = (rx.get 22).toNat + 256 * (rx.get 23).toNat ∧ d.aiMode = m)

/-- R207, R202, R204: two valid frames that agree but for the bytes 5, 6, 16-19, the bits 7:4 of byte 7, the
bits 15:14 of the echo word and their trailers decode to the same record. -/
def Obligations.DecoderIgnoresUnusedBits : Prop :=
  ∀ (f g : Frame) (m : Vector (BitVec 1) 2),
    crcValidate f.toList = true → crcValidate g.toList = true →
    (∀ i : Fin 26, i.val ∈ [0, 1, 2, 4, 8, 9, 10, 11, 12, 13, 14, 15, 20, 21, 22, 23] →
      f.get i = g.get i) →
    (f.get 3).extractLsb' 0 6 = (g.get 3).extractLsb' 0 6 →
    (f.get 7).extractLsb' 0 4 = (g.get 7).extractLsb' 0 4 →
    decodeFrame f m = decodeFrame g m

/-! ### Conversions -/

/-- 41_conversion.md R170, R171: the tier and the reload value of every divisor, and its bound. -/
def Obligations.DivisorTierAndReload : Prop :=
  ∀ f : Rat,
    (1 ≤ f → f < 10 → divTier (convFreq2Div f) = 3 ∧
      (divReload (convFreq2Div f)).toNat = ⌊62500 / f⌋.toNat / 4 * 4) ∧
    (10 ≤ f → f < 100 → divTier (convFreq2Div f) = 2 ∧
      (divReload (convFreq2Div f)).toNat = ⌊500000 / f⌋.toNat / 4 * 4) ∧
    (100 ≤ f → f < 1000 → divTier (convFreq2Div f) = 1 ∧
      (divReload (convFreq2Div f)).toNat = ⌊4000000 / f⌋.toNat / 4 * 4) ∧
    (1000 ≤ f → f < 100000 → divTier (convFreq2Div f) = 0 ∧
      (divReload (convFreq2Div f)).toNat = ⌊32000000 / f⌋.toNat / 4 * 4) ∧
    ((f < 1 ∨ 100000 ≤ f) → convFreq2Div f = 0) ∧
    (convFreq2Div f).toNat ≤ 62503

/-- R175 item 2, R173: inside [0, 10) the code is within one quantisation step below the voltage, raises no
warning and is at most 4094. -/
def Obligations.DacQuantisation : Prop :=
  ∀ v : Rat, 0 ≤ v → v < 10 →
    0 ≤ v - ((convDac v).1.toNat : Rat) * 10 / 4095 ∧
    v - ((convDac v).1.toNat : Rat) * 10 / 4095 < 10 / 4095 ∧
    (convDac v).2 = none ∧ (convDac v).1.toNat ≤ 4094

/-- R172, R175 item 1: the duty code is the floor, a multiple of 1/65535 gives itself, and the code written
into a frame field reads back. -/
def Obligations.DutyCodeRoundTrip : Prop :=
  (∀ d : Rat, 0 ≤ d → d ≤ 1 → (((convDuty d).toNat : Nat) : Int) = ⌊65535 * d⌋) ∧
  (∀ k : Nat, k ≤ 65535 → (convDuty ((k : Rat) / 65535)).toNat = k) ∧
  (∀ (d : Rat) (f : Frame) (i : Nat) (h : i + 1 < 26),
    rd16le (wr16le f i (convDuty d) h) i h = convDuty d)

/-- R174: the scaled reading, exactly; a code above 4095 is not clamped. -/
def Obligations.AinScaleExact : Prop :=
  ∀ (raw : Half) (m : BitVec 1),
    ainScale raw m * 4095 = (raw.toNat : Rat) * (if m = 1 then 50 else 10)
end

