-- ==== Sys2Proof/Laws/State.lean ====
section
/-! SUPPORT. One lemma per field for each named update of the state, so that no proof unfolds a record
update. -/
namespace Sys2Proof.Machine

@[simp] theorem emit_fsm (e : Event) (s : State) : (s.emit e).fsm = s.fsm := rfl
@[simp] theorem emit_dly (e : Event) (s : State) : (s.emit e).dly = s.dly := rfl
@[simp] theorem emit_ledCtrl (e : Event) (s : State) : (s.emit e).ledCtrl = s.ledCtrl := rfl
@[simp] theorem emit_ledVal (e : Event) (s : State) : (s.emit e).ledVal = s.ledVal := rfl
@[simp] theorem emit_dout (e : Event) (s : State) : (s.emit e).dout = s.dout := rfl
@[simp] theorem emit_dutyCode (e : Event) (s : State) : (s.emit e).dutyCode = s.dutyCode := rfl
@[simp] theorem emit_pwmDiv (e : Event) (s : State) : (s.emit e).pwmDiv = s.pwmDiv := rfl
@[simp] theorem emit_dacCode (e : Event) (s : State) : (s.emit e).dacCode = s.dacCode := rfl
@[simp] theorem emit_baudReg (e : Event) (s : State) : (s.emit e).baudReg = s.baudReg := rfl
@[simp] theorem emit_parity (e : Event) (s : State) : (s.emit e).parity = s.parity := rfl
@[simp] theorem emit_stop (e : Event) (s : State) : (s.emit e).stop = s.stop := rfl
@[simp] theorem emit_term (e : Event) (s : State) : (s.emit e).term = s.term := rfl
@[simp] theorem emit_aiMode (e : Event) (s : State) : (s.emit e).aiMode = s.aiMode := rfl
@[simp] theorem emit_slotVal (e : Event) (s : State) : (s.emit e).slotVal = s.slotVal := rfl
@[simp] theorem emit_queue (e : Event) (s : State) : (s.emit e).queue = s.queue := rfl
@[simp] theorem emit_inflight (e : Event) (s : State) : (s.emit e).inflight = s.inflight := rfl
@[simp] theorem emit_inflightV (e : Event) (s : State) : (s.emit e).inflightV = s.inflightV := rfl
@[simp] theorem emit_inflightTask (e : Event) (s : State) : (s.emit e).inflightTask = s.inflightTask := rfl
@[simp] theorem emit_openRem (e : Event) (s : State) : (s.emit e).openRem = s.openRem := rfl
@[simp] theorem emit_openRej (e : Event) (s : State) : (s.emit e).openRej = s.openRej := rfl
@[simp] theorem emit_snap (e : Event) (s : State) : (s.emit e).snap = s.snap := rfl
@[simp] theorem emit_snapV (e : Event) (s : State) : (s.emit e).snapV = s.snapV := rfl
@[simp] theorem emit_tx (e : Event) (s : State) : (s.emit e).tx = s.tx := rfl
@[simp] theorem emit_par (e : Event) (s : State) : (s.emit e).par = s.par := rfl
@[simp] theorem emit_inbox (e : Event) (s : State) : (s.emit e).inbox = s.inbox := rfl
@[simp] theorem emit_outs (e : Event) (s : State) : (s.emit e).outs = s.outs ++ [e] := rfl

@[simp] theorem raise_fsm (e : Event) (s : State) : (raise e s).fsm = s.fsm := rfl
@[simp] theorem raise_dly (e : Event) (s : State) : (raise e s).dly = s.dly := rfl
@[simp] theorem raise_ledCtrl (e : Event) (s : State) : (raise e s).ledCtrl = s.ledCtrl := rfl
@[simp] theorem raise_ledVal (e : Event) (s : State) : (raise e s).ledVal = s.ledVal := rfl
@[simp] theorem raise_dout (e : Event) (s : State) : (raise e s).dout = s.dout := rfl
@[simp] theorem raise_dutyCode (e : Event) (s : State) : (raise e s).dutyCode = s.dutyCode := rfl
@[simp] theorem raise_pwmDiv (e : Event) (s : State) : (raise e s).pwmDiv = s.pwmDiv := rfl
@[simp] theorem raise_dacCode (e : Event) (s : State) : (raise e s).dacCode = s.dacCode := rfl
@[simp] theorem raise_baudReg (e : Event) (s : State) : (raise e s).baudReg = s.baudReg := rfl
@[simp] theorem raise_parity (e : Event) (s : State) : (raise e s).parity = s.parity := rfl
@[simp] theorem raise_stop (e : Event) (s : State) : (raise e s).stop = s.stop := rfl
@[simp] theorem raise_term (e : Event) (s : State) : (raise e s).term = s.term := rfl
@[simp] theorem raise_aiMode (e : Event) (s : State) : (raise e s).aiMode = s.aiMode := rfl
@[simp] theorem raise_slotVal (e : Event) (s : State) : (raise e s).slotVal = s.slotVal := rfl
@[simp] theorem raise_queue (e : Event) (s : State) : (raise e s).queue = s.queue := rfl
@[simp] theorem raise_inflight (e : Event) (s : State) : (raise e s).inflight = s.inflight := rfl
@[simp] theorem raise_inflightV (e : Event) (s : State) : (raise e s).inflightV = s.inflightV := rfl
@[simp] theorem raise_inflightTask (e : Event) (s : State) : (raise e s).inflightTask = s.inflightTask := rfl
@[simp] theorem raise_openRem (e : Event) (s : State) : (raise e s).openRem = s.openRem := rfl
@[simp] theorem raise_openRej (e : Event) (s : State) : (raise e s).openRej = s.openRej := rfl
@[simp] theorem raise_snap (e : Event) (s : State) : (raise e s).snap = s.snap := rfl
@[simp] theorem raise_snapV (e : Event) (s : State) : (raise e s).snapV = s.snapV := rfl
@[simp] theorem raise_tx (e : Event) (s : State) : (raise e s).tx = s.tx := rfl
@[simp] theorem raise_par (e : Event) (s : State) : (raise e s).par = s.par := rfl
@[simp] theorem raise_inbox (e : Event) (s : State) : (raise e s).inbox = s.inbox := rfl
@[simp] theorem raise_outs (e : Event) (s : State) : (raise e s).outs = s.outs ++ [e] := rfl

@[simp] theorem reject_fsm (op : Byte) (c : Cause) (s : State) : (reject op c s).fsm = s.fsm := rfl
@[simp] theorem reject_dly (op : Byte) (c : Cause) (s : State) : (reject op c s).dly = s.dly := rfl
@[simp] theorem reject_ledCtrl (op : Byte) (c : Cause) (s : State) : (reject op c s).ledCtrl = s.ledCtrl := rfl
@[simp] theorem reject_ledVal (op : Byte) (c : Cause) (s : State) : (reject op c s).ledVal = s.ledVal := rfl
@[simp] theorem reject_dout (op : Byte) (c : Cause) (s : State) : (reject op c s).dout = s.dout := rfl
@[simp] theorem reject_dutyCode (op : Byte) (c : Cause) (s : State) : (reject op c s).dutyCode = s.dutyCode := rfl
@[simp] theorem reject_pwmDiv (op : Byte) (c : Cause) (s : State) : (reject op c s).pwmDiv = s.pwmDiv := rfl
@[simp] theorem reject_dacCode (op : Byte) (c : Cause) (s : State) : (reject op c s).dacCode = s.dacCode := rfl
@[simp] theorem reject_baudReg (op : Byte) (c : Cause) (s : State) : (reject op c s).baudReg = s.baudReg := rfl
@[simp] theorem reject_parity (op : Byte) (c : Cause) (s : State) : (reject op c s).parity = s.parity := rfl
@[simp] theorem reject_stop (op : Byte) (c : Cause) (s : State) : (reject op c s).stop = s.stop := rfl
@[simp] theorem reject_term (op : Byte) (c : Cause) (s : State) : (reject op c s).term = s.term := rfl
@[simp] theorem reject_aiMode (op : Byte) (c : Cause) (s : State) : (reject op c s).aiMode = s.aiMode := rfl
@[simp] theorem reject_slotVal (op : Byte) (c : Cause) (s : State) : (reject op c s).slotVal = s.slotVal := rfl
@[simp] theorem reject_queue (op : Byte) (c : Cause) (s : State) : (reject op c s).queue = s.queue := rfl
@[simp] theorem reject_inflight (op : Byte) (c : Cause) (s : State) : (reject op c s).inflight = s.inflight := rfl
@[simp] theorem reject_inflightV (op : Byte) (c : Cause) (s : State) : (reject op c s).inflightV = s.inflightV := rfl
@[simp] theorem reject_inflightTask (op : Byte) (c : Cause) (s : State) : (reject op c s).inflightTask = s.inflightTask := rfl
@[simp] theorem reject_openRem (op : Byte) (c : Cause) (s : State) : (reject op c s).openRem = s.openRem := rfl
@[simp] theorem reject_openRej (op : Byte) (c : Cause) (s : State) : (reject op c s).openRej = s.openRej := rfl
@[simp] theorem reject_snap (op : Byte) (c : Cause) (s : State) : (reject op c s).snap = s.snap := rfl
@[simp] theorem reject_snapV (op : Byte) (c : Cause) (s : State) : (reject op c s).snapV = s.snapV := rfl
@[simp] theorem reject_tx (op : Byte) (c : Cause) (s : State) : (reject op c s).tx = s.tx := rfl
@[simp] theorem reject_par (op : Byte) (c : Cause) (s : State) : (reject op c s).par = s.par := rfl
@[simp] theorem reject_inbox (op : Byte) (c : Cause) (s : State) : (reject op c s).inbox = s.inbox := rfl
@[simp] theorem reject_outs (op : Byte) (c : Cause) (s : State) : (reject op c s).outs = s.outs ++ [.cmdError op c] := rfl

@[simp] theorem setSlot_fsm (i : SlotIdx) (v : Half) (s : State) : (s.setSlot i v).fsm = s.fsm := rfl
@[simp] theorem setSlot_dly (i : SlotIdx) (v : Half) (s : State) : (s.setSlot i v).dly = s.dly := rfl
@[simp] theorem setSlot_ledCtrl (i : SlotIdx) (v : Half) (s : State) : (s.setSlot i v).ledCtrl = s.ledCtrl := rfl
@[simp] theorem setSlot_ledVal (i : SlotIdx) (v : Half) (s : State) : (s.setSlot i v).ledVal = s.ledVal := rfl
@[simp] theorem setSlot_dout (i : SlotIdx) (v : Half) (s : State) : (s.setSlot i v).dout = s.dout := rfl
@[simp] theorem setSlot_dutyCode (i : SlotIdx) (v : Half) (s : State) : (s.setSlot i v).dutyCode = s.dutyCode := rfl
@[simp] theorem setSlot_pwmDiv (i : SlotIdx) (v : Half) (s : State) : (s.setSlot i v).pwmDiv = s.pwmDiv := rfl
@[simp] theorem setSlot_dacCode (i : SlotIdx) (v : Half) (s : State) : (s.setSlot i v).dacCode = s.dacCode := rfl
@[simp] theorem setSlot_baudReg (i : SlotIdx) (v : Half) (s : State) : (s.setSlot i v).baudReg = s.baudReg := rfl
@[simp] theorem setSlot_parity (i : SlotIdx) (v : Half) (s : State) : (s.setSlot i v).parity = s.parity := rfl
@[simp] theorem setSlot_stop (i : SlotIdx) (v : Half) (s : State) : (s.setSlot i v).stop = s.stop := rfl
@[simp] theorem setSlot_term (i : SlotIdx) (v : Half) (s : State) : (s.setSlot i v).term = s.term := rfl
@[simp] theorem setSlot_aiMode (i : SlotIdx) (v : Half) (s : State) : (s.setSlot i v).aiMode = s.aiMode := rfl
@[simp] theorem setSlot_slotVal (i : SlotIdx) (v : Half) (s : State) : (s.setSlot i v).slotVal = s.slotVal.set i.val v i.isLt := rfl
@[simp] theorem setSlot_queue (i : SlotIdx) (v : Half) (s : State) : (s.setSlot i v).queue = s.queue := rfl
@[simp] theorem setSlot_inflight (i : SlotIdx) (v : Half) (s : State) : (s.setSlot i v).inflight = s.inflight := rfl
@[simp] theorem setSlot_inflightV (i : SlotIdx) (v : Half) (s : State) : (s.setSlot i v).inflightV = s.inflightV := rfl
@[simp] theorem setSlot_inflightTask (i : SlotIdx) (v : Half) (s : State) : (s.setSlot i v).inflightTask = s.inflightTask := rfl
@[simp] theorem setSlot_openRem (i : SlotIdx) (v : Half) (s : State) : (s.setSlot i v).openRem = s.openRem := rfl
@[simp] theorem setSlot_openRej (i : SlotIdx) (v : Half) (s : State) : (s.setSlot i v).openRej = s.openRej := rfl
@[simp] theorem setSlot_snap (i : SlotIdx) (v : Half) (s : State) : (s.setSlot i v).snap = s.snap := rfl
@[simp] theorem setSlot_snapV (i : SlotIdx) (v : Half) (s : State) : (s.setSlot i v).snapV = s.snapV := rfl
@[simp] theorem setSlot_tx (i : SlotIdx) (v : Half) (s : State) : (s.setSlot i v).tx = s.tx := rfl
@[simp] theorem setSlot_par (i : SlotIdx) (v : Half) (s : State) : (s.setSlot i v).par = s.par := rfl
@[simp] theorem setSlot_inbox (i : SlotIdx) (v : Half) (s : State) : (s.setSlot i v).inbox = s.inbox := rfl
@[simp] theorem setSlot_outs (i : SlotIdx) (v : Half) (s : State) : (s.setSlot i v).outs = s.outs := rfl

@[simp] theorem answered_fsm (evs : List Event) (s : State) : (s.answered evs).fsm = s.fsm := rfl
@[simp] theorem answered_dly (evs : List Event) (s : State) : (s.answered evs).dly = s.dly := rfl
@[simp] theorem answered_ledCtrl (evs : List Event) (s : State) : (s.answered evs).ledCtrl = s.ledCtrl := rfl
@[simp] theorem answered_ledVal (evs : List Event) (s : State) : (s.answered evs).ledVal = s.ledVal := rfl
@[simp] theorem answered_dout (evs : List Event) (s : State) : (s.answered evs).dout = s.dout := rfl
@[simp] theorem answered_dutyCode (evs : List Event) (s : State) : (s.answered evs).dutyCode = s.dutyCode := rfl
@[simp] theorem answered_pwmDiv (evs : List Event) (s : State) : (s.answered evs).pwmDiv = s.pwmDiv := rfl
@[simp] theorem answered_dacCode (evs : List Event) (s : State) : (s.answered evs).dacCode = s.dacCode := rfl
@[simp] theorem answered_baudReg (evs : List Event) (s : State) : (s.answered evs).baudReg = s.baudReg := rfl
@[simp] theorem answered_parity (evs : List Event) (s : State) : (s.answered evs).parity = s.parity := rfl
@[simp] theorem answered_stop (evs : List Event) (s : State) : (s.answered evs).stop = s.stop := rfl
@[simp] theorem answered_term (evs : List Event) (s : State) : (s.answered evs).term = s.term := rfl
@[simp] theorem answered_aiMode (evs : List Event) (s : State) : (s.answered evs).aiMode = s.aiMode := rfl
@[simp] theorem answered_slotVal (evs : List Event) (s : State) : (s.answered evs).slotVal = s.slotVal := rfl
@[simp] theorem answered_queue (evs : List Event) (s : State) : (s.answered evs).queue = s.queue := rfl
@[simp] theorem answered_inflight (evs : List Event) (s : State) : (s.answered evs).inflight = s.inflight := rfl
@[simp] theorem answered_inflightV (evs : List Event) (s : State) : (s.answered evs).inflightV = s.inflightV := rfl
@[simp] theorem answered_inflightTask (evs : List Event) (s : State) : (s.answered evs).inflightTask = s.inflightTask := rfl
@[simp] theorem answered_openRem (evs : List Event) (s : State) : (s.answered evs).openRem = s.openRem := rfl
@[simp] theorem answered_openRej (evs : List Event) (s : State) : (s.answered evs).openRej = s.openRej := rfl
@[simp] theorem answered_snap (evs : List Event) (s : State) : (s.answered evs).snap = s.snap := rfl
@[simp] theorem answered_snapV (evs : List Event) (s : State) : (s.answered evs).snapV = s.snapV := rfl
@[simp] theorem answered_tx (evs : List Event) (s : State) : (s.answered evs).tx = s.tx := rfl
@[simp] theorem answered_par (evs : List Event) (s : State) : (s.answered evs).par = s.par := rfl
@[simp] theorem answered_inbox (evs : List Event) (s : State) : (s.answered evs).inbox = s.inbox := rfl
@[simp] theorem answered_outs (evs : List Event) (s : State) : (s.answered evs).outs = s.outs ++ evs := rfl

end Sys2Proof.Machine
end

