-- ==== Sys2Proof/Laws/Ops.lean ====
section
/-! SUPPORT. For each shared operation, once, everything it can do. -/
namespace Sys2Proof.Machine

/-! ### Events -/

theorem reject_eq_answered (op : Byte) (c : Cause) (s : State) :
    reject op c s = s.answered [.cmdError op c] := rfl

theorem emit_eq_answered (e : Event) (s : State) : s.emit e = s.answered [e] := rfl

/-- The events between a state and one whose output extends it. -/
theorem newOuts_of_append {s t : State} {evs : List Event} (h : t.outs = s.outs ++ evs) :
    newOuts s t = evs := by
  simp [newOuts, h]

/-! ### Command checks -/

theorem firstCause_nil : firstCause [] = none := rfl

theorem firstCause_cons (b : Bool) (c : Cause) (rest : List Check) :
    firstCause ((b, c) :: rest) = if b then some c else firstCause rest := rfl

/-- A command either is refused by its first failing check, and then only answers CMD_ERROR, or runs its
pseudocode. -/
theorem command_cases (op : Byte) (checks : List Check) (act : State → State) (s : State) :
    (∃ c, firstCause checks = some c ∧ command op checks act s = s.answered [.cmdError op c]) ∨
    (firstCause checks = none ∧ command op checks act s = act s) := by
  unfold command
  cases h : firstCause checks with
  | none => exact .inr ⟨rfl, rfl⟩
  | some c => exact .inl ⟨c, rfl, rfl⟩

/-- All checks pass exactly when none of them fails. -/
theorem firstCause_eq_none {checks : List Check} :
    firstCause checks = none ↔ ∀ p ∈ checks, p.1 = false := by
  induction checks with
  | nil => simp [firstCause]
  | cons p rest ih =>
    obtain ⟨b, c⟩ := p
    cases b <;> simp [firstCause, ih]

/-! ### The queue -/

/-- ENQUEUE with room appends the task and does nothing else. -/
theorem enqueue_of_room {t : Task} {s : State} (h : s.qlen ≠ s.par.qDepth) :
    enqueue t s = some { s with queue := s.queue ++ [t] } := by
  simp [enqueue, h]

theorem enqueue_of_full {t : Task} {s : State} (h : s.qlen = s.par.qDepth) :
    enqueue t s = none := by
  simp [enqueue, h]

/-- Everything ENQUEUE can do. -/
theorem enqueue_cases (t : Task) (s : State) :
    (s.qlen = s.par.qDepth ∧ enqueue t s = none) ∨
    (s.qlen ≠ s.par.qDepth ∧ enqueue t s = some { s with queue := s.queue ++ [t] }) := by
  by_cases h : s.qlen = s.par.qDepth
  · exact .inl ⟨h, enqueue_of_full h⟩
  · exact .inr ⟨h, enqueue_of_room h⟩

/-- With room for all of them, several ENQUEUEs append the tasks in order. -/
theorem enqueueAll_of_room {ts : List Task} {s : State}
    (h : s.qlen + ts.length ≤ s.par.qDepth) :
    enqueueAll ts s = { s with queue := s.queue ++ ts } := by
  induction ts generalizing s with
  | nil => simp [enqueueAll]
  | cons t ts ih =>
    simp only [List.length_cons] at h
    have h1 : s.qlen ≠ s.par.qDepth := by omega
    have h2 : enqueueAll (t :: ts) s = enqueueAll ts { s with queue := s.queue ++ [t] } := by
      simp [enqueueAll, enqueue_of_room h1]
    rw [h2, ih]
    · simp
    · simp only [State.qlen, List.length_append, List.length_singleton] at h ⊢
      omega

/-- One ENQUEUE into a queue that is not full. -/
theorem enqueueAll_one {t : Task} {s : State} (h : s.qlen ≠ s.par.qDepth) :
    enqueueAll [t] s = { s with queue := s.queue ++ [t] } := by
  simp [enqueueAll, enqueue_of_room h]

/-- A task is in flight exactly when the valid bit is set and the register holds it. -/
theorem inflightTask_eq_some {s : State} {t : Task} :
    s.inflightTask = some t ↔ s.inflightV = true ∧ s.inflight = t := by
  unfold State.inflightTask
  cases s.inflightV <;> simp

theorem inflightTask_eq_none {s : State} : s.inflightTask = none ↔ s.inflightV = false := by
  unfold State.inflightTask
  cases s.inflightV <;> simp

/-- With nothing in flight the tasks are the queued ones. -/
theorem tasks_of_clear {s : State} (h : s.inflightV = false) : s.tasks = s.queue := by
  rw [State.tasks, inflightTask_eq_none.2 h]
  exact List.append_nil _

/-- With a task in flight the tasks are the queued ones and that one. -/
theorem tasks_of_inflight {s : State} (h : s.inflightV = true) : s.tasks = s.queue ++ [s.inflight] := by
  rw [State.tasks, inflightTask_eq_some.2 ⟨h, rfl⟩]
  rfl

/-- Everything ADMIT can do: nothing while a task is in flight or none is queued; else one task of the
queue goes in flight and the others stay in their order. -/
theorem admitNext_cases (s : State) :
    (admitNext s = s ∧ (s.inflightV = true ∨ s.queue = [])) ∨
    (s.inflightV = false ∧ ∃ t l r, s.queue = l ++ t :: r ∧
      admitNext s = { s with inflightV := true, inflight := t, queue := l ++ r }) := by
  unfold admitNext
  cases hi : s.inflightV with
  | true => exact .inl ⟨rfl, .inl rfl⟩
  | false =>
    simp only [takeTask, Bool.false_eq_true, if_false]
    cases s.par.admitOrder with
    | fifo =>
      cases hq : s.queue with
      | nil => exact .inl ⟨rfl, .inr rfl⟩
      | cons t rest => exact .inr ⟨trivial, t, [], rest, rfl, rfl⟩
    | lifo =>
      rcases List.eq_nil_or_concat s.queue with hq | ⟨rest, t, hq⟩
      · exact .inl ⟨by simp [hq], .inr hq⟩
      · exact .inr ⟨trivial, t, rest, [], by simp [hq], by simp [hq]⟩

/-- Everything one turn of CFG_REFRESH can do. -/
theorem refreshSlot_cases (i : SlotIdx) (w : Half) (s : State) :
    (refreshSlot i w s = s ∧ (s.slotValue i = w ∨ s.qlen = s.par.qDepth)) ∨
    (s.slotValue i ≠ w ∧ s.qlen ≠ s.par.qDepth ∧
      refreshSlot i w s = { s with
        slotVal := s.slotVal.set i.val w i.isLt
        queue := s.queue ++ [{ slot := i, origin := .cfg, tag := BitVec.ofNat 16 i.val }] }) := by
  unfold refreshSlot
  by_cases h : s.slotValue i = w
  · exact .inl ⟨by simp [h], .inl h⟩
  · rcases enqueue_cases { slot := i, origin := .cfg, tag := BitVec.ofNat 16 i.val } s with
      ⟨hf, he⟩ | ⟨hf, he⟩
    · exact .inl ⟨by simp [h, he], .inr hf⟩
    · exact .inr ⟨h, hf, by simp [h, he, State.setSlot]⟩

/-- A turn of CFG_REFRESH changes no more than its slot's value and the end of the queue. -/
theorem refreshSlot_frame (i : SlotIdx) (w : Half) (s : State) : ∃ vals ts,
    refreshSlot i w s = { s with slotVal := vals, queue := s.queue ++ ts } ∧
    (∀ j, j ≠ i → vals.get j = s.slotValue j) ∧
    (s.qlen ≤ s.par.qDepth → s.qlen + ts.length ≤ s.par.qDepth) ∧
    ∀ t ∈ ts, t = { slot := i, origin := .cfg, tag := BitVec.ofNat 16 i.val } := by
  rcases refreshSlot_cases i w s with ⟨h, -⟩ | ⟨-, hq, h⟩
  · exact ⟨s.slotVal, [], by rw [h, List.append_nil], fun _ _ => rfl, id, fun _ ht => nomatch ht⟩
  · refine ⟨_, _, h, fun j hj => ?_, fun hle => ?_, fun t ht => List.mem_singleton.1 ht⟩
    · rw [Vector.get_eq_getElem, Vector.getElem_set_ne _ _ fun e => hj (Fin.ext e.symm)]
      rfl
    · rw [List.length_singleton]
      omega

/-- CFG_REFRESH changes no more than the values of slots 14 to 16 and the end of the queue, where it
appends CFG tasks only. -/
theorem cfgRefresh_frame (s : State) : ∃ vals ts,
    cfgRefresh s = { s with slotVal := vals, queue := s.queue ++ ts } ∧
    (∀ j : SlotIdx, j ≠ slotBaud → j ≠ slotMode → j ≠ slotBoard → vals.get j = s.slotValue j) ∧
    (s.qlen ≤ s.par.qDepth → s.qlen + ts.length ≤ s.par.qDepth) ∧
    ∀ t ∈ ts, t.origin = .cfg ∧ t.tag = BitVec.ofNat 16 t.slot.val := by
  obtain ⟨v1, t1, e1, f1, q1, o1⟩ := refreshSlot_frame slotBaud (baudWord s) s
  obtain ⟨v2, t2, e2, f2, q2, o2⟩ := refreshSlot_frame slotMode (modeWord s)
    { s with slotVal := v1, queue := s.queue ++ t1 }
  obtain ⟨v3, t3, e3, f3, q3, o3⟩ := refreshSlot_frame slotBoard (boardWord s)
    { s with slotVal := v2, queue := s.queue ++ t1 ++ t2 }
  refine ⟨v3, t1 ++ t2 ++ t3, ?_, fun j h1 h2 h3 => ?_, fun h => ?_, fun t ht => ?_⟩
  · rw [cfgRefresh, e1, e2, e3]
    simp only [List.append_assoc]
  · exact (f3 j h3).trans ((f2 j h2).trans (f1 j h1))
  · have := q1 h
    simp only [State.qlen, List.length_append] at this q2 q3 ⊢
    omega
  · simp only [List.mem_append] at ht
    rcases ht with (ht | ht) | ht
    · rw [o1 t ht]; exact ⟨rfl, rfl⟩
    · rw [o2 t ht]; exact ⟨rfl, rfl⟩
    · rw [o3 t ht]; exact ⟨rfl, rfl⟩

/-! ### Completion and cadence -/

/-- Everything OPEN_ACCOUNT can do. -/
theorem openAccount_eq (err : Bool) (s : State) :
    openAccount err s = { s with
      openRej := s.openRej || err
      openRem := s.openRem - 1
      outs := s.outs ++ (if s.openRem - 1 = 0 then [.openDone (s.openRej || err)] else []) } := by
  unfold openAccount
  dsimp only
  split_ifs <;> simp [State.emit]

/-- Everything COMPLETE_MATCH does. -/
theorem completeMatch_eq (t : Task) (v : Half) (err : Bool) (s : State) :
    completeMatch t v err s = { s with
      slotVal := s.slotVal.set t.slot.val v t.slot.isLt
      inflightV := false
      openRej := if t.origin = .opened then s.openRej || err else s.openRej
      openRem := if t.origin = .opened then s.openRem - 1 else s.openRem
      outs := s.outs ++ [if err then .svcReject t v else .svcResolve t v]
        ++ (if t.origin = .opened ∧ s.openRem - 1 = 0 then [.openDone (s.openRej || err)] else []) } := by
  obtain ⟨slot, origin, tag⟩ := t
  cases origin <;> cases err <;>
    simp [completeMatch, openAccount_eq, raise, State.emit, State.setSlot]

/-- Everything COMPLETE can do. -/
theorem complete_cases (addr : BitVec 13) (v : Half) (err : Bool) (s : State) :
    (complete addr v err s = s ∧ ∀ t, s.inflightTask = some t → addr.setWidth 16 ≠ slotAddr t.slot) ∨
    (∃ t, s.inflightTask = some t ∧ addr.setWidth 16 = slotAddr t.slot ∧
      complete addr v err s = completeMatch t v err s) := by
  unfold complete
  cases hi : s.inflightTask with
  | none => exact .inl ⟨rfl, by simp⟩
  | some t =>
    by_cases h : addr.setWidth 16 = slotAddr t.slot
    · exact .inr ⟨t, rfl, h, by simp [h]⟩
    · exact .inl ⟨by simp [h], by simpa using h⟩

/-- A task is pending for the purpose of SCHEDULE (44_scheduler.md R256). -/
def pendingWork (s : State) : Bool :=
  decide (0 < s.qlen) || (s.par.delayCountsInflight && s.inflightV)

/-- Everything SCHEDULE does. -/
theorem schedule_eq (s : State) :
    schedule s = { s with
      fsm := if pendingWork s then .build else .wait
      dly := if pendingWork s then s.dly else s.par.periodTicks } := by
  unfold schedule pendingWork
  by_cases h : 0 < s.qlen
  · simp [h]
  · have h0 : s.qlen = 0 := by omega
    by_cases hb : (s.par.delayCountsInflight && s.inflightV) = true
    · simp [h0, hb]
    · rw [Bool.not_eq_true] at hb
      simp [h0, hb]

/-- Everything the countdown of TICK does. -/
theorem countTick_eq (s : State) :
    countTick s = { s with dly := s.dly - 1, fsm := if s.dly - 1 = 0 then .build else s.fsm } := by
  unfold countTick
  dsimp only
  split_ifs <;> rfl

/-- Everything an answered exchange does before SCHEDULE. -/
theorem dispatchReply_cases (rx : Frame) (s : State) :
    (crcOk rx = false ∧ dispatchReply rx s = s.answered [.frameError .crcMismatch rx]) ∨
    (∃ d, decodeFrame rx s.aiMode = some d ∧ crcOk rx = true ∧
      dispatchReply rx s =
        (complete d.echoAddr d.echoValue d.echoErr { s with snap := d.snapshot, snapV := true }).emit
          (.dataReady d.snapshot)) := by
  unfold dispatchReply
  cases h : crcOk rx with
  | false => exact .inl ⟨rfl, by simp [decodeFrame, h]; rfl⟩
  | true =>
    right
    simp only [decodeFrame, h, if_true]
    refine ⟨_, rfl, trivial, ?_⟩
    dsimp only
    rcases complete_cases (echoAddr rx) (rd16le rx 0) (echoErr rx)
        { s with snap := Decoded.snapshot _, snapV := true } with ⟨hc, -⟩ | ⟨t, -, -, hc⟩
    · rw [hc]
    · rw [hc, completeMatch_eq]

/-- Everything the frame build does (BUILD_STEP, 44_scheduler.md R253). -/
theorem buildFrame_eq (s : State) :
    buildFrame s = { admitNext (cfgRefresh s) with
      tx := encodeFrame (admitNext (cfgRefresh s))
      fsm := .xfer
      outs := (admitNext (cfgRefresh s)).outs ++ [.xferReq (encodeFrame (admitNext (cfgRefresh s)))] } := by
  simp only [buildFrame, State.emit]

/-! ### The step -/

/-- What the block takes from a nonempty inbox. -/
theorem fetch_cons {s : State} {m : Msg} {rest : List Msg} (h : s.inbox = m :: rest) :
    fetch s = some (decode m, { s with inbox := rest }) := by
  simp only [fetch, h]

/-- What the block does without an input. -/
theorem fetch_nil {s : State} (h : s.inbox = []) :
    fetch s = if s.fsm = .build then some (.ok .buildStep, s) else none := by
  simp only [fetch, h]

theorem step_of_fetch_none {s : State} (h : fetch s = none) : step s = .next s := by
  simp only [step, h]

theorem step_of_fetch_ok {s s' : State} {i : Instr} (h : fetch s = some (.ok i, s')) :
    step s = exec i s' := by
  simp only [step, h]

theorem step_of_fetch_error {s s' : State} {e : DecodeError} (h : fetch s = some (.error e, s')) :
    step s = refuseInput e s' := by
  simp only [step, h]

/-- Everything a step can do. -/
theorem step_cases {s t : State} (h : step s = .next t) :
    (s.inbox = [] ∧ s.fsm ≠ .build ∧ t = s) ∨
    (s.inbox = [] ∧ s.fsm = .build ∧ exec .buildStep s = .next t) ∨
    (∃ m rest i, s.inbox = m :: rest ∧ decode m = .ok i ∧ exec i { s with inbox := rest } = .next t) ∨
    (∃ m rest op, s.inbox = m :: rest ∧ decode m = .error (.unknownOpcode op) ∧
      t = { s with inbox := rest, outs := s.outs ++ [.cmdError op .unknownOpcode] }) := by
  rcases hb : s.inbox with _ | ⟨m, rest⟩
  · have hf := fetch_nil hb
    by_cases hs : s.fsm = .build
    · rw [if_pos hs] at hf
      rw [step_of_fetch_ok hf] at h
      exact .inr (.inl ⟨rfl, hs, h⟩)
    · rw [if_neg hs] at hf
      rw [step_of_fetch_none hf] at h
      exact .inl ⟨rfl, hs, (Host.Outcome.next.inj h).symm⟩
  · have hf := fetch_cons hb
    rcases hd : decode m with e | i
    · rw [hd] at hf
      rw [step_of_fetch_error hf] at h
      rcases e with op | ⟨p, op⟩
      · exact .inr (.inr (.inr ⟨m, rest, op, rfl, hd, (Host.Outcome.next.inj h).symm⟩))
      · exact nomatch h
    · rw [hd] at hf
      rw [step_of_fetch_ok hf] at h
      exact .inr (.inr (.inl ⟨m, rest, i, rfl, hd, h⟩))

end Sys2Proof.Machine
end

