-- ==== Sys2Proof/Laws/Checks.lean ====
section
/-! SUPPORT. When each check of a host command fails and when it passes (45_host_commands.md R280). -/
namespace Sys2Proof.Machine

/-- A command whose first failing check reports `c` answers with it and does nothing else. -/
theorem command_refused {op : Byte} {checks : List Check} {act : State → State} {s : State} {c : Cause}
    (h : firstCause checks = some c) : command op checks act s = s.answered [.cmdError op c] := by
  simp only [command, h, reject_eq_answered]

/-- A command whose checks all pass runs its pseudocode. -/
theorem command_runs {op : Byte} {checks : List Check} {act : State → State} {s : State}
    (h : firstCause checks = none) : command op checks act s = act s := by
  simp only [command, h]

/-- A check that fails reports its cause. -/
theorem firstCause_fails {p : Check} {rest : List Check} (h : p.1 = true) :
    firstCause (p :: rest) = some p.2 := by
  obtain ⟨b, c⟩ := p
  simp only at h
  simp [firstCause, h]

/-- A check that passes leaves the decision to the next ones. -/
theorem firstCause_passes {p : Check} {rest : List Check} (h : p.1 = false) :
    firstCause (p :: rest) = firstCause rest := by
  obtain ⟨b, c⟩ := p
  simp only at h
  simp [firstCause, h]

theorem reservedCheck_fails {n : Nat} {rsv : BitVec n} : (reservedCheck rsv).1 = true ↔ rsv ≠ 0 := by
  simp only [reservedCheck, bne_iff_ne]

theorem reservedCheck_passes {n : Nat} {rsv : BitVec n} : (reservedCheck rsv).1 = false ↔ rsv = 0 := by
  rw [← Bool.not_eq_true, reservedCheck_fails, not_not]

theorem indexCheck_fails {n last : Nat} {i : BitVec n} :
    (indexCheck last i).1 = true ↔ last < i.toNat := by
  simp only [indexCheck, decide_eq_true_eq]

theorem indexCheck_passes {n last : Nat} {i : BitVec n} :
    (indexCheck last i).1 = false ↔ i.toNat ≤ last := by
  simp only [indexCheck, decide_eq_false_iff_not, not_lt]

theorem denCheck_fails {den : Word} : (denCheck den).1 = true ↔ den = 0 := by
  simp only [denCheck, beq_iff_eq]

theorem denCheck_passes {den : Word} : (denCheck den).1 = false ↔ den ≠ 0 := by
  rw [← Bool.not_eq_true, denCheck_fails]

theorem baudCheck_fails {baud : BitVec 24} :
    (baudCheck baud).1 = true ↔ baud = 0 ∨ baud.toNat % 100 ≠ 0 ∨ 65535 < baud.toNat / 100 := by
  simp only [baudCheck, Bool.or_eq_true, beq_iff_eq, bne_iff_ne, decide_eq_true_eq, or_assoc]

theorem closedCheck_fails {s : State} : (closedCheck s).1 = true ↔ s.fsm = .closed := by
  simp only [closedCheck, beq_iff_eq]

theorem fullCheck_fails {s : State} : (fullCheck s).1 = true ↔ s.qlen = s.par.qDepth := by
  simp only [fullCheck, beq_iff_eq]

theorem openRoomCheck_fails {s : State} : (openRoomCheck s).1 = true ↔ s.par.qDepth < s.qlen + 19 := by
  simp only [openRoomCheck, decide_eq_true_eq]

/-! ### The rational operand -/

theorem den_pos {den : Word} (h : den ≠ 0) : 0 < den.toNat :=
  Nat.pos_of_ne_zero fun h0 => h (BitVec.eq_of_toNat_eq (by simpa using h0))

/-- The operand's value is the quotient. -/
theorem ratOperand_eq (num den : Word) : ratOperand num den = (num.toInt : Rat) / (den.toNat : Rat) := by
  rw [ratOperand, Rat.mkRat_eq_div]

/-- A scaled operand's floor, in integers. -/
theorem floor_scaled (num den : Word) (k : Int) :
    Rat.floor ((k : Rat) * ratOperand num den) = k * num.toInt / (den.toNat : Int) := by
  rw [ratOperand_eq, ← mul_div_assoc]
  have h : ((k : Rat) * (num.toInt : Rat)) / (den.toNat : Rat)
      = ((k * num.toInt : Int) : Rat) / ((den.toNat : Int) : Rat) := by push_cast; rfl
  rw [h]
  exact Rat.floor_intCast_div_natCast _ _

/-- The operand compared with an integer, in integers. -/
theorem ratOperand_lt {num den : Word} (h : den ≠ 0) (k : Int) :
    ratOperand num den < (k : Rat) ↔ num.toInt < k * (den.toNat : Int) := by
  rw [ratOperand_eq, div_lt_iff₀ (by exact_mod_cast den_pos h)]
  exact_mod_cast Iff.rfl

theorem lt_ratOperand {num den : Word} (h : den ≠ 0) (k : Int) :
    (k : Rat) < ratOperand num den ↔ k * (den.toNat : Int) < num.toInt := by
  rw [ratOperand_eq, lt_div_iff₀ (by exact_mod_cast den_pos h)]
  exact_mod_cast Iff.rfl

/-- The duty check, in integers: it passes exactly for the duties WellFormed admits. -/
theorem dutyCheck_fails {num den : Word} (h : den ≠ 0) :
    (dutyCheck (ratOperand num den)).1 = true ↔ num.toInt < 0 ∨ (den.toNat : Int) < num.toInt := by
  have h0 := ratOperand_lt (num := num) h 0
  have h1 := lt_ratOperand (num := num) h 1
  simp only [Int.cast_zero, zero_mul, Int.cast_one, one_mul] at h0 h1
  simp only [dutyCheck, Bool.or_eq_true, decide_eq_true_eq, h0, h1]

end Sys2Proof.Machine
end

