-- ==== Sys2Proof/Laws/Decode.lean ====
section
/-! SUPPORT. Slices of concatenations, and the opcode map both ways. -/
namespace Sys2Proof

/-- A slice above the low part of a concatenation is a slice of the high part. -/
theorem extract_append_high {a b : Nat} (x : BitVec a) (y : BitVec b) {s l : Nat} (h : b ≤ s) :
    (x ++ y).extractLsb' s l = x.extractLsb' (s - b) l := by
  apply BitVec.eq_of_getLsbD_eq
  intro i hi
  simp [BitVec.getLsbD_append, show ¬ (s + i < b) by omega, show s + i - b = s - b + i by omega]

/-- A slice within the low part of a concatenation is a slice of the low part. -/
theorem extract_append_low {a b : Nat} (x : BitVec a) (y : BitVec b) {s l : Nat} (h : s + l ≤ b) :
    (x ++ y).extractLsb' s l = y.extractLsb' s l := by
  apply BitVec.eq_of_getLsbD_eq
  intro i hi
  simp [BitVec.getLsbD_append, show s + i < b by omega]

/-- The slice of everything. -/
theorem extract_all {b : Nat} (y : BitVec b) : y.extractLsb' 0 b = y := by
  apply BitVec.eq_of_getLsbD_eq
  intro i hi
  simp [hi]

/-- Two adjacent slices joined are one slice. -/
theorem extract_join {n : Nat} (w : BitVec n) {a b c l : Nat} (h : c = a + b) :
    w.extractLsb' c l ++ w.extractLsb' a b = w.extractLsb' a (l + b) := by
  subst h
  apply BitVec.eq_of_getLsbD_eq
  intro i hi
  by_cases h1 : i < b
  · rw [BitVec.getLsbD_append]
    simp [h1, hi]
  · rw [BitVec.getLsbD_append]
    simp [h1, hi, show i - b < l by omega, show a + b + (i - b) = a + i by omega]

/-- The opcode map has each command at its own opcode. -/
@[simp] theorem hostOp_code (o : HostOp) : hostOp o.code = some o := by
  cases o <;> decide

/-- What the opcode map gives has that opcode. -/
theorem code_of_hostOp {op : Byte} {o : HostOp} (h : hostOp op = some o) : o.code = op := by
  simpa using List.find?_some h

/-- A host word whose opcode is a command's decodes to that command's fields. -/
theorem decodeHost_of_code {w : Word} {o : HostOp} (p : Payload) (h : opcodeOf w = o.code) :
    decodeHost w p = .ok (hostFields o w p) := by
  simp only [decodeHost, h, hostOp_code]

end Sys2Proof
end

