-- ==== Sys2Proof/Laws/Frame.lean ====
section
/-! SUPPORT. Reads after writes of a frame: a write is read back, and leaves every other field alone. -/
namespace Sys2Proof.Machine

@[simp] theorem rd8_wr8 (f : Frame) (i : Nat) (v : Byte) (h : i < 26) : rd8 (wr8 f i v h) i h = v := by
  simp [rd8, wr8]

theorem rd8_wr8_other (f : Frame) {i j : Nat} (v : Byte) (hi : i < 26) (hj : j < 26) (h : i ≠ j) :
    rd8 (wr8 f i v hi) j hj = rd8 f j hj := by
  simp [rd8, wr8, h]

theorem rd8_wr16le_other (f : Frame) {i j : Nat} (v : Half) (hi : i + 1 < 26) (hj : j < 26)
    (h : j < i ∨ i + 1 < j) : rd8 (wr16le f i v hi) j hj = rd8 f j hj := by
  simp only [rd8, wr16le, Vector.getElem_set]
  rw [if_neg (by omega), if_neg (by omega)]

@[simp] theorem rd16le_wr16le (f : Frame) (i : Nat) (v : Half) (h : i + 1 < 26) :
    rd16le (wr16le f i v h) i h = v := by
  simp only [rd16le, wr16le, Vector.getElem_set, if_true]
  rw [if_neg (by omega)]
  exact (extract_join v rfl).trans (extract_all v)

theorem rd16le_wr8_other (f : Frame) {i j : Nat} (v : Byte) (hi : i < 26) (hj : j + 1 < 26)
    (h : i < j ∨ j + 1 < i) : rd16le (wr8 f i v hi) j hj = rd16le f j hj := by
  simp only [rd16le, wr8, Vector.getElem_set]
  rw [if_neg (by omega), if_neg (by omega)]

theorem rd16le_wr16le_other (f : Frame) {i j : Nat} (v : Half) (hi : i + 1 < 26) (hj : j + 1 < 26)
    (h : i + 1 < j ∨ j + 1 < i) : rd16le (wr16le f i v hi) j hj = rd16le f j hj := by
  simp only [rd16le, wr16le, Vector.getElem_set]
  rw [if_neg (by omega), if_neg (by omega), if_neg (by omega), if_neg (by omega)]

end Sys2Proof.Machine
end

