-- ==== Sys2Proof/Laws/PerInstr.lean ====
section
/-! SUPPORT. The statements made of every instruction as syntax, one lemma per constructor. -/
namespace Sys2Proof.Laws

/-- The opcode of an instruction's row (30_encoding.md R105, R107); the internal step's row has none, and
its word is 0. -/
def rowOpcode : Instr → Byte
  | .openCmd _ => 0x01
  | .closeCmd _ => 0x02
  | .setLed _ _ _ => 0x10
  | .setDout _ _ => 0x11
  | .setPwmDuty _ _ _ _ => 0x12
  | .setPwmFreq _ _ _ _ => 0x13
  | .setAout _ _ _ _ => 0x14
  | .setRs485Baud _ => 0x20
  | .setRs485Mode _ _ _ => 0x21
  | .setBoardCfg _ _ _ _ => 0x22
  | .svcRead _ _ => 0x30
  | .svcWrite _ _ _ _ => 0x31
  | .tick => 0x80
  | .xferDone _ => 0x81
  | .xferFail _ => 0x82
  | .buildStep => 0x00

/-- The high byte of a word written as an opcode before 24 operand bits. -/
theorem opcodeOf_append (op : Byte) (operands : BitVec 24) :
    opcodeOf (op ++ operands : BitVec (8 + 24)) = op := by
  rw [opcodeOf, extract_append_high op operands (Nat.le_refl 24)]
  exact extract_all op

namespace EncodesOpcode

/-- The encoder writes the row's opcode into the word's high byte, whatever the operands are. -/
def Statement (i : Instr) : Prop := opcodeOf (encodeWord i) = rowOpcode i

theorem openCmd (rsv : BitVec 24) : Statement (.openCmd rsv) := opcodeOf_append _ _

theorem closeCmd (rsv : BitVec 24) : Statement (.closeCmd rsv) := opcodeOf_append _ _

theorem setLed (rsv ctrl val : BitVec 8) : Statement (.setLed rsv ctrl val) := by
  rw [Statement, encodeWord, opcodeOf, extract_append_high (b := 8) _ _ (by decide),
    extract_append_high (b := 8) _ _ (by decide), extract_append_high (b := 8) _ _ (by decide)]
  exact extract_all _

theorem setDout (rsv : BitVec 20) (mask : BitVec 4) : Statement (.setDout rsv mask) := by
  rw [Statement, encodeWord, opcodeOf, extract_append_high (b := 4) _ _ (by decide),
    extract_append_high (b := 20) _ _ (by decide)]
  exact extract_all _

theorem setPwmDuty (rsv : BitVec 20) (k : BitVec 4) (num den : Word) :
    Statement (.setPwmDuty rsv k num den) := by
  rw [Statement, encodeWord, opcodeOf, extract_append_high (b := 4) _ _ (by decide),
    extract_append_high (b := 20) _ _ (by decide)]
  exact extract_all _

theorem setPwmFreq (rsv : BitVec 20) (g : BitVec 4) (num den : Word) :
    Statement (.setPwmFreq rsv g num den) := by
  rw [Statement, encodeWord, opcodeOf, extract_append_high (b := 4) _ _ (by decide),
    extract_append_high (b := 20) _ _ (by decide)]
  exact extract_all _

theorem setAout (rsv : BitVec 20) (c : BitVec 4) (num den : Word) :
    Statement (.setAout rsv c num den) := by
  rw [Statement, encodeWord, opcodeOf, extract_append_high (b := 4) _ _ (by decide),
    extract_append_high (b := 20) _ _ (by decide)]
  exact extract_all _

theorem setRs485Baud (baud : BitVec 24) : Statement (.setRs485Baud baud) := opcodeOf_append _ _

theorem setRs485Mode (rsv : BitVec 20) (stop parity : BitVec 2) :
    Statement (.setRs485Mode rsv stop parity) := by
  rw [Statement, encodeWord, opcodeOf, extract_append_high (b := 2) _ _ (by decide),
    extract_append_high (b := 2) _ _ (by decide), extract_append_high (b := 20) _ _ (by decide)]
  exact extract_all _

theorem setBoardCfg (rsv : BitVec 21) (ai2 ai1 term : BitVec 1) :
    Statement (.setBoardCfg rsv ai2 ai1 term) := by
  rw [Statement, encodeWord, opcodeOf, extract_append_high (b := 1) _ _ (by decide),
    extract_append_high (b := 1) _ _ (by decide), extract_append_high (b := 1) _ _ (by decide),
    extract_append_high (b := 21) _ _ (by decide)]
  exact extract_all _

theorem svcRead (slot : BitVec 8) (tag : Half) : Statement (.svcRead slot tag) := by
  rw [Statement, encodeWord, opcodeOf, extract_append_high (b := 16) _ _ (by decide),
    extract_append_high (b := 8) _ _ (by decide)]
  exact extract_all _

theorem svcWrite (slot : BitVec 8) (tag : Half) (prsv : BitVec 48) (value : Half) :
    Statement (.svcWrite slot tag prsv value) := by
  rw [Statement, encodeWord, opcodeOf, extract_append_high (b := 16) _ _ (by decide),
    extract_append_high (b := 8) _ _ (by decide)]
  exact extract_all _

theorem tick : Statement .tick := by
  unfold Statement; decide

theorem xferDone (rx : Frame) : Statement (.xferDone rx) := by
  show opcodeOf 0x81000000 = 0x81
  decide

theorem xferFail (reason : Byte) : Statement (.xferFail reason) := by
  rw [Statement, encodeWord, opcodeOf, extract_append_high (b := 8) _ _ (by decide),
    extract_append_high (b := 16) _ _ (by decide)]
  exact extract_all _

theorem buildStep : Statement .buildStep := by
  unfold Statement; decide

end EncodesOpcode
end Sys2Proof.Laws
end

