-- ==== Sys2Proof/Tests/Slice0.lean ====
section
/-! SUPPORT. Tests on the spec's own vectors (95_test_vectors.md), one word decoded per instruction, and a
witness for the hypotheses of each statement. -/
namespace Sys2Proof.Tests
open Sys2Proof.Machine

set_option Elab.async false

/-! ### States and frames -/

/-- The parameters of 95_test_vectors.md. -/
def par (o : AdmitOrder) (counts : Bool) : Params := ⟨10, o, counts, ⟨2, by decide⟩, 3, ⟨95, by decide⟩, 1⟩

/-- `s0` of 95_test_vectors.md. -/
def s0 : State := { State.reset with par := par .fifo false, baudReg := 96 }

/-- `s0` in another sequencing state. -/
def inState (f : Fsm) : State := { s0 with fsm := f }

/-- WAIT with `n` ticks to wait. -/
def waiting (n : Nat) : State := { s0 with fsm := .wait, dly := BitVec.ofNat 32 n }

/-- A state whose queue holds `n` tasks. -/
def queued (f : Fsm) (n : Nat) : State :=
  { inState f with queue := List.replicate n { slot := 1, origin := .host, tag := 0 } }

/-- A frame from its bytes. -/
def bytes (l : List Nat) : Frame := Vector.ofFn fun i : Fin 26 => BitVec.ofNat 8 (l.getD i.val 0)

/-- The inbound frame of L1-2, with a given byte 24 (0x99 is right). -/
def inL12 (b : Nat) : Frame :=
  bytes [0, 0, 0, 0, 0, 0, 0, 0x05, 0, 0, 0, 0, 0x64, 0, 0, 0, 0, 0, 0, 0, 0, 0x08, 0, 0, b, 0x2B]

/-- The echo of slot 13 with value 0x01F4 (P2 step 4). -/
def echo13 : Frame := bytes [0xF4, 0x01, 0x0F, 0x10, 0x80, 0, 0, 0x0A, 0xFF, 0xFF, 0xFF, 0xFF, 0x07, 0, 0, 0,
  0, 0, 0, 0, 0xFF, 0x0F, 0x33, 0x03, 0xE4, 0x08]

/-- The same echo with the device's error bit (P2 step 10). -/
def echo13err : Frame := bytes [0xF4, 0x01, 0x0F, 0x30, 0x80, 0, 0, 0x0A, 0xFF, 0xFF, 0xFF, 0xFF, 0x07, 0, 0, 0,
  0, 0, 0, 0, 0xFF, 0x0F, 0x33, 0x03, 0xC3, 0x6A]

def task13 : Machine.Task := { slot := 13, origin := .host, tag := 7 }
def open13 : Machine.Task := { slot := 13, origin := .opened, tag := 13 }

/-- XFER with a task in flight. -/
def inXfer (t : Machine.Task) : State := { inState .xfer with inflightV := true, inflight := t, openRem := 1 }

/-- The next state passes a check. -/
def after (o : Host.Outcome State Fault Refusal) (p : State → Bool) : Bool :=
  match o with
  | .next s => p s
  | .fault _ => false
  | .refused _ => false

/-- The words and bytes of the events a step emits. -/
def shown (s t : State) : List (Nat × List Nat) :=
  (newOuts s t).map fun e => (e.word.toNat, e.tail.map (·.toNat))

/-! ### Decoding: words written out from the formats of 30_encoding.md R102, R107 -/

theorem test_decode_open : decode (.host 0x01000000 0) = .ok (.openCmd 0) := rfl
theorem test_decode_close : decode (.host 0x02FFFFFF 0) = .ok (.closeCmd 0xFFFFFF) := rfl
theorem test_decode_setLed : decode (.host 0x10A50F81 0) = .ok (.setLed 0xA5 0x0F 0x81) := rfl
theorem test_decode_setDout : decode (.host 0x1180000A 0) = .ok (.setDout 0x80000 0xA) := rfl
theorem test_decode_setPwmDuty :
    decode (.host 0x12000013 0xFFFFFFFF80000000) = .ok (.setPwmDuty 1 3 0xFFFFFFFF 0x80000000) := rfl
theorem test_decode_setPwmFreq :
    decode (.host 0x13000000 0x000003E800000001) = .ok (.setPwmFreq 0 0 1000 1) := rfl
theorem test_decode_setAout :
    decode (.host 0x14000001 0xFFFFFFFF0000000A) = .ok (.setAout 0 1 0xFFFFFFFF 10) := rfl
theorem test_decode_setRs485Baud : decode (.host 0x20002580 0) = .ok (.setRs485Baud 9600) := rfl
theorem test_decode_setRs485Mode : decode (.host 0x21000006 0) = .ok (.setRs485Mode 0 1 2) := rfl
theorem test_decode_setBoardCfg : decode (.host 0x22000003 0) = .ok (.setBoardCfg 0 0 1 1) := rfl
theorem test_decode_svcRead : decode (.host 0x300D0007 0) = .ok (.svcRead 13 7) := rfl
theorem test_decode_svcWrite :
    decode (.host 0x310D0008 0x00000001000003E8) = .ok (.svcWrite 13 8 0x10000 1000) := rfl
theorem test_decode_tick : decode (.tick 0x80FFFFFF) = .ok .tick := rfl
theorem test_decode_xferDone : decode (.transport 0x81123456 echo13) = .ok (.xferDone echo13) := rfl
theorem test_decode_xferFail : decode (.transport 0x82FFFF05 echo13) = .ok (.xferFail 5) := rfl
theorem test_decode_buildStep : decode .internal = .ok .buildStep := rfl
theorem test_decode_tick_on_host : decode (.host 0x80000000 0) = .error (.unknownOpcode 0x80) := rfl
theorem test_decode_foreign_word : decode (.tick 0x10000101) = .error (.notAnInput .tick 0x10) := rfl

/-- The payload of a table word stands above its word's 32 bits; a row without bits is BUILD_STEP's. -/
theorem test_table_words :
    decodeTableWord 32 0x10000101 = some (.setLed 0 1 1) ∧
    decodeTableWord 96 0x000000020000000114000000 = some (.setAout 0 0 2 1) ∧
    decodeTableWord 32 0x82000005 = some (.xferFail 5) ∧
    decodeTableWord 32 0x7F000000 = none ∧ decodeTableWord 0 0 = some .buildStep := by decide +kernel

/-- The opcodes R106 lists are exactly those the map of R105 does not assign. -/
theorem test_unassigned_complement : ∀ op : Byte, unassignedOpcode op = (hostOp op).isNone := by
  decide +kernel

/-- Lines of R117 and R118. -/
theorem test_assembler :
    assemble "SET_PWM 3, 999/100, 0.25 ; both\nSVC_WRITE 0x0D, 1000, tag=8\nWAIT_TICKS 2".toList =
      some [.setPwmFreq 0 1 999 100, .setPwmDuty 0 3 1 4, .svcWrite 13 8 0 1000, .tick, .tick] := by
  decide +kernel

/-! ### Well-formedness: each check refuses an ill-formed term -/

theorem test_wf_accepts :
    [Instr.openCmd 0, .setLed 0 255 255, .setPwmDuty 0 3 1 1, .setPwmFreq 0 1 0xFFFFFFFF 1,
      .setRs485Baud 6553500, .svcRead 18 0, .svcWrite 18 0 0 65535, .tick, .buildStep].all
      Instr.wellFormed = true := by decide +kernel
theorem test_wf_reserved :
    [Instr.openCmd 1, .closeCmd 1, .setLed 1 0 0, .setDout 1 0, .setPwmDuty 1 0 0 1, .setPwmFreq 1 0 0 1,
      .setAout 1 0 0 1, .setRs485Mode 1 0 0, .setBoardCfg 1 0 0 0, .svcWrite 0 0 1 0].any
      Instr.wellFormed = false := by decide +kernel
theorem test_wf_index :
    [Instr.setPwmDuty 0 4 0 1, .setPwmFreq 0 2 0 1, .setAout 0 2 0 1, .svcRead 19 0,
      .svcWrite 19 0 0 0].any Instr.wellFormed = false := by decide +kernel
theorem test_wf_denominator :
    [Instr.setPwmDuty 0 0 0 0, .setPwmFreq 0 0 0 0, .setAout 0 0 0 0].any Instr.wellFormed = false := by
  decide +kernel
theorem test_wf_duty :
    [Instr.setPwmDuty 0 0 3 2, .setPwmDuty 0 0 0xFFFFFFFF 10].any Instr.wellFormed = false := by
  decide +kernel
theorem test_wf_baud :
    [Instr.setRs485Baud 0, .setRs485Baud 9601, .setRs485Baud 6553600].any Instr.wellFormed = false := by
  decide +kernel

/-! ### One step of each instruction (95_test_vectors.md V7, P1-P5) -/

theorem test_open_room : after (exec (.openCmd 0) (queued .idle 13)) (fun t =>
    t.qlen == 32 && t.fsm == .build && t.openRem == 19) = true := by decide +kernel
theorem test_open_full : after (exec (.openCmd 0) (queued .idle 14)) (fun t =>
    shown (queued .idle 14) t == [(0xC9000106, [])] && t.qlen == 14) = true := by decide +kernel
theorem test_close : after (exec (.closeCmd 0) (waiting 5)) (fun t =>
    shown s0 t == [(0xC8000000, [])] && t.dly == 0 && t.fsm == .closed) = true := by decide +kernel
theorem test_close_idle : after (exec (.closeCmd 0) s0) (fun t => shown s0 t == []) = true := by
  decide +kernel
theorem test_setLed : after (exec (.setLed 0 0x0F 0x05) s0) (fun t =>
    t.ledCtrl == 0x0F && t.ledVal == 0x05) = true := by decide +kernel
theorem test_setDout_closed : after (exec (.setDout 0 15) (inState .closed)) (fun t => t.dout == 0xF) = true := by
  decide +kernel
theorem test_setPwmDuty : after (exec (.setPwmDuty 0 3 1 4) s0) (fun t =>
    t.dutyCode.toList == [0, 0, 0, 0x3FFF]) = true := by decide +kernel
theorem test_setPwmDuty_domain : after (exec (.setPwmDuty 0 0 3 2) s0) (fun t =>
    shown s0 t == [(0xC9001204, [])]) = true := by decide +kernel
theorem test_setPwmFreq : after (exec (.setPwmFreq 0 1 100 1) s0) (fun t =>
    t.pwmDiv.toList == [0, 0x9C41]) = true := by decide +kernel
theorem test_setAout_high : after (exec (.setAout 0 1 12 1) s0) (fun t =>
    t.dacCode.toList == [0, 4095] && shown s0 t == [(0xC3000003, [])]) = true := by decide +kernel
theorem test_setAout_low : after (exec (.setAout 0 0 0xFFFFFFFF 10) s0) (fun t =>
    t.dacCode.toList == [0, 0] && shown s0 t == [(0xC3000000, [])]) = true := by decide +kernel
theorem test_setRs485Baud : after (exec (.setRs485Baud 6553500) s0) (fun t => t.baudReg == 65535) = true := by
  decide +kernel
theorem test_setRs485Mode : after (exec (.setRs485Mode 0 1 2) s0) (fun t => modeWord t == 0x0033) = true := by
  decide +kernel
theorem test_setBoardCfg : after (exec (.setBoardCfg 0 0 1 1) s0) (fun t =>
    boardWord t == 3 && t.aiMode.toList == [1, 0]) = true := by decide +kernel
theorem test_svcRead : after (exec (.svcRead 13 7) s0) (fun t => t.queue == [task13]) = true := by
  decide +kernel
theorem test_svcRead_index_first : after (exec (.svcRead 19 0) (inState .closed)) (fun t =>
    shown s0 t == [(0xC9003003, [])]) = true := by decide +kernel
theorem test_svcWrite : after (exec (.svcWrite 13 8 0 1000) s0) (fun t =>
    t.slotValue 13 == 0x03E8 && t.qlen == 1) = true := by decide +kernel
theorem test_svcWrite_full : after (exec (.svcWrite 13 8 0 1000) (queued .wait 32)) (fun t =>
    t.slotValue 13 == 0xFFFF && shown (queued .wait 32) t == [(0xC9003106, [])]) = true := by decide +kernel
theorem test_tick_counts : after (exec .tick (waiting 2)) (fun t => t.dly == 1 && t.fsm == .wait) = true := by
  decide +kernel
theorem test_tick_starts : after (exec .tick (waiting 1)) (fun t => t.dly == 0 && t.fsm == .build) = true := by
  decide +kernel
theorem test_xferDone_resolves : after (exec (.xferDone echo13) (inXfer task13)) (fun t =>
    t.slotValue 13 == 0x01F4 && shown s0 t == [(0xC40D0007, [0xF4, 0x01]),
      (0xC0000000, [0x0A, 0x80, 0xFF, 0xFF, 0xFF, 0xFF, 7, 0, 0, 0, 0xFF, 0x0F, 0x33, 0x03, 0, 0])]
    && t.inflightV == false && t.inflight == task13 && t.fsm == .wait && t.dly == 3) = true := by decide +kernel
theorem test_xferDone_rejects_open : after (exec (.xferDone echo13err) (inXfer open13)) (fun t =>
    (shown s0 t).map Prod.fst == [0xC54D000D, 0xC6000001, 0xC0000000]) = true := by decide +kernel
theorem test_xferFail : after (exec (.xferFail 5) (inXfer task13)) (fun t =>
    shown s0 t == [(0xC2000005, [])] && t.inflightTask == some task13 && t.dly == 3) = true := by decide +kernel
theorem test_buildStep : after (exec .buildStep (inState .build)) (fun t =>
    t.slotValue 14 == 96 && t.slotValue 15 == 3 && t.slotValue 16 == 0 && t.qlen == 2
    && (t.tx.toList.take 4).map (·.toNat) == [0x60, 0, 0x10, 0x10]) = true := by decide +kernel

/-- The first step after reset runs a table word. -/
theorem test_withFetchWord : after (step (State.reset.withFetchWord 32 0x10000101)) (fun t =>
    t.ledCtrl == 1 && t.inbox.isEmpty) = true := by decide +kernel

/-! ### Vectors of the units (V1-V6) -/

theorem test_crc_vectors :
    [crcCompute [0x00], crcCompute [0xFF], crcCompute [0x01, 0x02], crcCompute [1, 3, 0, 0, 0, 0x0A],
      crcCompute (List.replicate 24 0), crcCompute (List.replicate 24 0xFF)] =
    [0x40BF, 0x00FF, 0xE181, 0xCDC5, 0xF77A, 0x844E] := by decide +kernel
theorem test_divisor_vectors :
    [convFreq2Div (1 / 2), convFreq2Div 1, convFreq2Div (999 / 100), convFreq2Div 10, convFreq2Div 100,
      convFreq2Div 1000, convFreq2Div 99999, convFreq2Div 100000, convFreq2Div (32000000 / 380)] =
    [0, 0xF427, 0x1873, 0xC352, 0x9C41, 0x7D00, 0x0140, 0, 0x017C] := by decide +kernel
theorem test_dac_vectors :
    [(convDac (1 / 100)).1, (convDac 5).1, (convDac (9999 / 1000)).1] = [4, 2047, 4094] := by decide +kernel
theorem test_ain_vectors :
    ainScale 819 0 = 2 ∧ ainScale 4095 1 = 50 ∧ ainScale 65535 0 = 655350 / 4095 := by decide +kernel
theorem test_encode_vector :
    (encodeFrame { s0 with
      ledCtrl := 0x0F
      ledVal := 0x05
      dout := 1
      pwmDiv := #v[0x7D00, 0x9C41]
      dutyCode := #v[0x7FFF, 0, 0, 0x3FFF]
      dacCode := #v[0, 4095] }).toList.map (·.toNat) =
    [0, 0, 0, 0, 0, 0x0F, 0x05, 0x01, 0x00, 0x7D, 0xFF, 0x7F, 0, 0, 0, 0, 0x41, 0x9C, 0xFF, 0x3F, 0, 0, 0xFF,
      0x0F, 0x1D, 0x55] := by decide +kernel

/-! ### Witnesses: the hypotheses of each statement that has some are met, clause by clause -/

/-- A step ends in a next state. -/
def runs (o : Host.Outcome State Fault Refusal) : Bool := after o fun _ => true

theorem runs_next {o : Host.Outcome State Fault Refusal} (h : runs o = true) : ∃ t, o = .next t := by
  cases o with
  | next t => exact ⟨t, rfl⟩
  | fault _ => exact nomatch h
  | refused _ => exact nomatch h

/-- `s` with one input to take. -/
def given (i : Instr) (s : State) : State := { s with inbox := [encode i] }

theorem wit_HostWordLosesNoBit :
    decode (.host 0x3112FFFF 0xFFFFFFFFFFFF03E8) = .ok (.svcWrite 0x12 0xFFFF 0xFFFFFFFFFFFF 0x03E8) ∧
    hasPayload (.svcWrite 0x12 0xFFFF 0xFFFFFFFFFFFF 0x03E8) = true := ⟨rfl, rfl⟩

theorem wit_EnvironmentWords :
    opcodeOf 0x80FFFFFF = 0x80 ∧ opcodeOf 0x81FFFFFF = 0x81 ∧ opcodeOf 0x82FFFF07 = 0x82 ∧
    0x80 ≤ (opcodeOf 0x80000000).toNat ∧ (opcodeOf 0x82FFFFFF).toNat ≤ 0x82 := by decide +kernel

theorem wit_UnassignedOpcodeAnswered :
    ({ s0 with inbox := [.host 0x32000000 5, .internal] } : State).inbox = .host 0x32000000 5 :: [.internal] ∧
    [0x00, 0x03, 0x0F, 0x15, 0x1F, 0x23, 0x2F, 0x32, 0xFF].all unassignedOpcode = true ∧
    opcodeOf 0x32000000 = 0x32 := by decide +kernel

theorem wit_SnapshotRecordBytes :
    ∀ i, (fun i => (Snapshot.zero.record.getD i 0).toNat) i = (Snapshot.zero.record.getD i 0).toNat :=
  fun _ => rfl

theorem wit_EventBitsDetermineEvent :
    (Event.svcReject task13 1000).word = (Event.svcReject task13 1000).word ∧
    (Event.svcReject task13 1000).tail = (Event.svcReject task13 1000).tail := ⟨rfl, rfl⟩

theorem wit_StepRunsDecoded :
    (given (.setLed 0 1 1) s0).inbox = .host 0x10000101 0 :: [] ∧
    decode (.host 0x10000101 0) = .ok (.setLed 0 1 1) := ⟨rfl, rfl⟩

theorem wit_StepWithoutInput :
    ((inState .build).inbox = [] ∧ (inState .build).fsm = .build) ∧ s0.inbox = [] ∧ s0.fsm ≠ .build := by
  decide +kernel

theorem wit_StepAppendsOutput : ∃ t, step (given (.setAout 0 0 10 1) s0) = .next t :=
  runs_next (by decide +kernel)

theorem wit_SetLedResult : (0 : BitVec 8) = 0 ∧ (0x80 : BitVec 8) ≠ 0 := by decide
theorem wit_SetDoutResult : (0 : BitVec 20) = 0 ∧ (0x80000 : BitVec 20) ≠ 0 := by decide
theorem wit_SetModeResult : (0 : BitVec 20) = 0 ∧ (1 : BitVec 20) ≠ 0 := by decide
theorem wit_SetBoardResult : (0 : BitVec 21) = 0 ∧ (1 : BitVec 21) ≠ 0 ∧
    (inState .xfer).fsm = .xfer ∧ crcValidate (inL12 0x99).toList = true := by decide +kernel

/-- The clauses in their order; the last at both ends of the duty's range, on the last sub-channel. -/
theorem wit_SetPwmDutyResult :
    (1 : BitVec 20) ≠ 0 ∧ 3 < (4 : BitVec 4).toNat ∧ (3 : BitVec 4).toNat ≤ 3 ∧
    (0xFFFFFFFF : Word).toInt < 0 ∧ ((7 : Word).toNat : Int) < (8 : Word).toInt ∧
    ((7 : Word) ≠ 0 ∧ 0 ≤ (0 : Word).toInt ∧ (0 : Word).toInt ≤ (7 : Word).toNat) ∧
    ((0xFFFFFFFF : Word) ≠ 0 ∧ 0 ≤ (0x7FFFFFFF : Word).toInt ∧
      (0x7FFFFFFF : Word).toInt ≤ (0xFFFFFFFF : Word).toNat) ∧ (7 : Word).toInt ≤ (7 : Word).toNat := by
  decide

theorem wit_SetPwmFreqResult :
    (1 : BitVec 20) ≠ 0 ∧ 1 < (2 : BitVec 4).toNat ∧ (1 : BitVec 4).toNat ≤ 1 ∧ (0 : Word) = 0 ∧
    (0xFFFFFFFF : Word) ≠ 0 := by decide

/-- The clauses in their order, the last three where they meet: 10, -1 and the largest value below 10. -/
theorem wit_SetAoutResult :
    (1 : BitVec 20) ≠ 0 ∧ 1 < (2 : BitVec 4).toNat ∧ (1 : BitVec 4).toNat ≤ 1 ∧ (3 : Word) ≠ 0 ∧
    (10 * (3 : Word).toNat : Int) ≤ (30 : Word).toInt ∧ (0xFFFFFFFF : Word).toInt < 0 ∧
    (0 ≤ (0 : Word).toInt ∧ (0 : Word).toInt < (10 * (3 : Word).toNat : Int)) ∧
    (0 ≤ (29 : Word).toInt ∧ (29 : Word).toInt < (10 * (3 : Word).toNat : Int)) := by decide

theorem wit_EqualQuotientsAgree :
    (2 : Word) ≠ 0 ∧ (6 : Word) ≠ 0 ∧
    (0xFFFFFFFF : Word).toInt * (6 : Word).toNat = (0xFFFFFFFD : Word).toInt * (2 : Word).toNat := by decide

/-- Refused: 0, 9601, 6553600. Accepted: 100 and 6553500. -/
theorem wit_SetBaudResult :
    (0 : BitVec 24) = 0 ∧ (9601 : BitVec 24).toNat % 100 ≠ 0 ∧ 65535 < (6553600 : BitVec 24).toNat / 100 ∧
    [100, 6553500].all (fun b : BitVec 24 => b != 0 && b.toNat % 100 == 0
      && decide (b.toNat / 100 ≤ 65535)) = true := by decide +kernel

theorem wit_SetCommandsStateIndependent :
    [Instr.setLed 0 0 0, .setDout 0 0, .setPwmDuty 0 0 0 0, .setPwmFreq 0 0 0 0, .setAout 0 0 0 0,
      .setRs485Baud 0, .setRs485Mode 0 0 0, .setBoardCfg 0 0 0 0].all isSetCommand = true := rfl

/-- Every host command, and a refusal that emits its CMD_ERROR. -/
theorem wit_RefusedCommandChangesNothing :
    [Instr.openCmd 0, .closeCmd 0, .setLed 0 0 0, .setDout 0 0, .setPwmDuty 0 0 0 0, .setPwmFreq 0 0 0 0,
      .setAout 0 0 0 0, .setRs485Baud 0, .setRs485Mode 0 0 0, .setBoardCfg 0 0 0 0, .svcRead 0 0,
      .svcWrite 0 0 0 0].all isHostCommand = true ∧
    after (exec (.svcRead 19 0) s0) (fun t => (newOuts s0 t).contains (.cmdError 0x30 .indexRange)) = true :=
  ⟨rfl, by decide +kernel⟩

/-- An ill-formed command; a well-formed one refused by its state; its CMD_ERROR. -/
theorem wit_IllFormedCommandRefused :
    (Instr.svcWrite 18 0 1 0).wellFormed = false ∧ (Instr.openCmd 0).wellFormed = true ∧
    after (exec (.openCmd 0) (waiting 1)) (fun t =>
      (newOuts (waiting 1) t).contains (.cmdError 0x01 .badState)) = true := by decide +kernel

/-- Slot 19; slot 18 in CLOSED; with a full queue; with one place left. -/
theorem wit_SvcReadResult :
    18 < (19 : BitVec 8).toNat ∧ (18 : BitVec 8).toNat ≤ 18 ∧ (inState .closed).fsm = .closed ∧
    ((queued .wait 32).fsm ≠ .closed ∧ (queued .wait 32).qlen = (queued .wait 32).par.qDepth) ∧
    ((18 : BitVec 8).toNat < 19 ∧ (queued .idle 31).fsm ≠ .closed ∧
      (queued .idle 31).qlen ≠ (queued .idle 31).par.qDepth) := by decide +kernel

theorem wit_SvcWriteResult :
    (1 : BitVec 48) ≠ 0 ∧ 18 < (19 : BitVec 8).toNat ∧ (inState .closed).fsm = .closed ∧
    ((queued .xfer 32).fsm ≠ .closed ∧ (queued .xfer 32).qlen = (queued .xfer 32).par.qDepth) ∧
    ((18 : BitVec 8).toNat < 19 ∧ (queued .build 31).fsm ≠ .closed ∧
      (queued .build 31).qlen ≠ (queued .build 31).par.qDepth) := by decide +kernel

/-- FIFO and LIFO with two queued tasks; a task in flight; an empty queue. -/
theorem wit_AdmitResult :
    let f : State := { s0 with queue := [task13, open13] }
    let l : State := { s0 with queue := [task13, open13], par := par .lifo false }
    (f.inflightV = false ∧ f.par.admitOrder = .fifo ∧ f.queue = task13 :: [open13]) ∧
    (l.inflightV = false ∧ l.par.admitOrder = .lifo ∧ l.queue = [task13] ++ [open13]) ∧
    (inXfer task13).inflightV = true ∧ s0.queue = [] := by decide +kernel

/-- Three differences with room for all, for one and for none. -/
theorem wit_CfgRefreshResult :
    let pushed (s : State) : List (SlotIdx × Half) :=
      (([(14, baudWord s), (15, modeWord s), (16, boardWord s)] : List (SlotIdx × Half)).filter
        fun p => s.slotValue p.1 != p.2).take (s.par.qDepth - s.qlen)
    s0.qlen ≤ s0.par.qDepth ∧ pushed s0 = [(14, 96), (15, 3), (16, 0)] ∧
    (queued .build 31).qlen ≤ (queued .build 31).par.qDepth ∧ pushed (queued .build 31) = [(14, 96)] ∧
    (queued .build 32).qlen ≤ (queued .build 32).par.qDepth ∧ pushed (queued .build 32) = [] := by
  decide +kernel

/-- A task in flight that a reply completes, one that it does not, and one that BUILD_STEP admits. -/
theorem wit_InFlightHeldUntilCompleted :
    after (step (given (.xferDone echo13) (inXfer task13))) (fun t => t.inflightV == false) = true ∧
    after (step (given (.xferDone (inL12 0x99)) (inXfer task13))) (fun t => t.inflightTask == some task13) = true ∧
    after (step { queued .build 1 with slotVal := (queued .build 1).slotVal.set 14 96 }) (fun t =>
      t.inflightTask == some { slot := 1, origin := .host, tag := 0 }) = true := by decide +kernel

theorem wit_NoDoubleResolution : ∃ t, step (given (.xferDone echo13) (inXfer task13)) = .next t :=
  runs_next (by decide +kernel)

theorem wit_OpenResult :
    (0x800000 : BitVec 24) ≠ 0 ∧ (waiting 1).fsm ≠ .idle ∧
    ((queued .idle 14).fsm = .idle ∧ ((queued .idle 14).par.qDepth : Int) - (queued .idle 14).qlen < 19) ∧
    ((queued .idle 13).fsm = .idle ∧ 19 ≤ ((queued .idle 13).par.qDepth : Int) - (queued .idle 13).qlen) := by
  decide +kernel

theorem wit_CloseResult :
    (1 : BitVec 24) ≠ 0 ∧ (inState .closed).fsm = .closed ∧ s0.fsm ≠ .closed ∧ (inState .xfer).fsm ≠ .closed := by
  decide +kernel

theorem wit_BuildStepResult : (inState .build).fsm = .build ∧ s0.fsm ≠ .build := by decide +kernel

/-- A BUILD_STEP that leaves a task in flight, and one that leaves none. -/
theorem wit_BuildStepSamplesOutputs :
    after (exec .buildStep (inState .build)) (fun t => t.inflightV) = true ∧
    after (exec .buildStep { inState .build with
      slotVal := (((inState .build).slotVal.set 14 96).set 15 3).set 16 0 }) (fun t => t.inflightV == false) = true := by
  decide +kernel

theorem wit_TickResult : (waiting 1).fsm = .wait ∧ (waiting 2).fsm = .wait ∧ (inState .xfer).fsm ≠ .wait := by
  decide +kernel

theorem wit_TicksStartNextCycle :
    ∀ n ∈ [0, 2], (waiting (n + 1)).fsm = .wait ∧ (waiting (n + 1)).dly.toNat = n + 1 ∧
      ({ waiting (n + 1) with inbox := List.replicate (n + 1) (encode .tick) ++ [.internal] } : State).inbox =
        List.replicate (n + 1) (encode .tick) ++ [.internal] := by decide +kernel

/-- One queued task; none, the in-flight one counted; none, not counted; none at all; outside XFER. -/
theorem wit_XferFailResult :
    let counted : State := { inXfer task13 with par := par .fifo true }
    ((queued .xfer 1).fsm = .xfer ∧ 0 < (queued .xfer 1).qlen) ∧
    (counted.fsm = .xfer ∧ counted.par.delayCountsInflight = true ∧ counted.inflightV = true) ∧
    ((inXfer task13).qlen = 0 ∧ (inXfer task13).par.delayCountsInflight = false) ∧
    ((inState .xfer).qlen = 0 ∧ (inState .xfer).inflightV = false) ∧ s0.fsm ≠ .xfer := by decide +kernel

/-- Both values of `more`, in XFER with a wrong trailer, and a reply outside XFER. -/
theorem wit_CrcFailureDiscardsReply :
    (true = true ↔ (0 < (queued .xfer 1).qlen ∨
      ((queued .xfer 1).par.delayCountsInflight = true ∧ (queued .xfer 1).inflightV = true))) ∧
    (false = true ↔ (0 < (inXfer task13).qlen ∨
      ((inXfer task13).par.delayCountsInflight = true ∧ (inXfer task13).inflightV = true))) ∧
    (queued .xfer 1).fsm = .xfer ∧ (inXfer task13).fsm = .xfer ∧
    crcValidate (inL12 0x98).toList = false ∧ (waiting 1).fsm ≠ .xfer := by decide +kernel

/-- A host task resolved and an OPEN task rejected. -/
theorem wit_MatchedReplyResult :
    ((inXfer task13).fsm = .xfer ∧ crcValidate echo13.toList = true ∧
      (inXfer task13).inflightTask = some task13 ∧
      (rd16le echo13 2).extractLsb' 0 13 = (slotAddr task13.slot).extractLsb' 0 13 ∧
      rd16le echo13 0 = 0x01F4 ∧ (rd16le echo13 2).getLsbD 13 = false) ∧
    ((inXfer open13).fsm = .xfer ∧ crcValidate echo13err.toList = true ∧
      (inXfer open13).inflightTask = some open13 ∧
      (rd16le echo13err 2).extractLsb' 0 13 = (slotAddr open13.slot).extractLsb' 0 13 ∧
      (rd16le echo13err 2).getLsbD 13 = true) := by decide +kernel

/-- The echo of another slot, and an echo with nothing in flight. -/
theorem wit_UnmatchedReplyResult :
    ((inXfer { task13 with slot := 9 }).fsm = .xfer ∧ crcValidate echo13.toList = true ∧
      ((rd16le echo13 2).extractLsb' 0 13).toNat ≠ (slotAddr 9).toNat ∧
      (false = true ↔ (0 < (inXfer { task13 with slot := 9 }).qlen ∨
        ((inXfer { task13 with slot := 9 }).par.delayCountsInflight = true ∧
          (inXfer { task13 with slot := 9 }).inflightV = true)))) ∧
    ((queued .xfer 1).fsm = .xfer ∧ (queued .xfer 1).inflightV = false ∧
      (true = true ↔ (0 < (queued .xfer 1).qlen ∨
        ((queued .xfer 1).par.delayCountsInflight = true ∧ (queued .xfer 1).inflightV = true)))) := by
  decide +kernel

theorem wit_CadenceAfterAnswer :
    ((queued .xfer 1).fsm = .xfer ∧ (queued .xfer 1).par.delayCountsInflight = false ∧
      after (exec (.xferFail 1) (queued .xfer 1)) (fun t => decide (0 < t.qlen)) = true) ∧
    ((inState .xfer).fsm = .xfer ∧ (inState .xfer).par.delayCountsInflight = false ∧
      after (exec (.xferDone echo13) (inState .xfer)) (fun t => t.qlen == 0) = true) := by decide +kernel

theorem wit_CompletionBeforeDataReady : (inXfer open13).fsm = .xfer := by decide +kernel

/-- A step that enters XFER, and the three that leave it. -/
theorem wit_OneExchangeAtATime :
    after (step (inState .build)) (fun t => t.fsm == .xfer
      && (newOuts (inState .build) t).contains (.xferReq t.tx)) = true ∧
    [Instr.xferDone echo13, .xferFail 1, .closeCmd 0].all (fun i =>
      after (step (given i (inXfer task13))) fun t => t.fsm != .xfer) = true := by decide +kernel

/-- In CLOSED, a refused command and a range warning. -/
theorem wit_ClosedIsTerminal :
    [Instr.svcRead 1 0, .setAout 0 0 10 1].all (fun i =>
      after (step (given i (inState .closed))) fun t => (newOuts (inState .closed) t).length == 1) = true ∧
    (inState .closed).fsm = .closed := by decide +kernel

/-- Each writer changes what it writes; BUILD_STEP sets the in-flight task, a matching reply clears its bit. -/
theorem wit_WritersOfSharedState :
    after (exec .buildStep (inState .build)) (fun t => t.slotVal != s0.slotVal && t.tx != s0.tx
      && t.inflight != s0.inflight && t.inflightV) = true ∧ (inState .build).inflightV = false ∧
    after (exec (.xferDone echo13) (inXfer task13)) (fun t =>
      t.slotVal != s0.slotVal && t.snap != s0.snap && t.snapV != s0.snapV && !t.inflightV) = true ∧
    (inXfer task13).inflightV = true ∧
    after (exec (.svcWrite 13 8 0 1000) s0) (fun t => t.slotVal != s0.slotVal) = true := by decide +kernel

/-- A state with the invariant, a queued OPEN task and a TICK to take. -/
theorem wit_StepKeepsInvariant :
    let s : State := { waiting 2 with queue := [open13], openRem := 1, inbox := [encode .tick] }
    s.Inv ∧ ∃ t, step s = .next t := by
  refine ⟨⟨?_, ?_, ?_, ?_, ?_, ?_, ?_, ?_, ?_⟩, runs_next (by decide +kernel)⟩
  · unfold State.QueueFits; decide +kernel
  · unfold State.DacInRange; decide +kernel
  · unfold State.BaudLegal; decide +kernel
  · unfold State.DelayLive; decide +kernel
  · unfold State.OpenCounted; decide +kernel
  · unfold State.TagsAreSlots; decide +kernel
  · unfold State.IdleQuiet; decide +kernel
  · exact fun _ => ⟨rfl, fun n h => nomatch h⟩
  · exact fun h => nomatch h

/-- A wrong body byte and wrong bytes at both places of the trailer. -/
theorem wit_SingleByteErrorDetected :
    crcValidate (inL12 0x99).toList = true ∧ (4 : Byte) ≠ (inL12 0x99).get 7 ∧
    (0x98 : Byte) ≠ (inL12 0x99).get 24 ∧ (0xAB : Byte) ≠ (inL12 0x99).get 25 := by decide +kernel

theorem wit_OutboundFrameFields : s0.inflightV = false ∧ (inXfer task13).inflightTask = some task13 := by
  decide +kernel

theorem wit_InboundFrameFields :
    crcValidate (inL12 0x98).toList = false ∧ crcValidate (inL12 0x99).toList = true := by decide +kernel

/-- Two valid frames that differ in every byte and bit the decoder does not use. -/
theorem wit_DecoderIgnoresUnusedBits :
    let f := inL12 0x99
    let g := withTrailer (bytes [0, 0, 0, 0xC0, 0, 1, 2, 0xF5, 0, 0, 0, 0, 0x64, 0, 0, 0, 3, 4, 5, 6, 0, 0x08, 0, 0])
    crcValidate f.toList = true ∧ crcValidate g.toList = true ∧
    (∀ i : Fin 26, i.val ∈ [0, 1, 2, 4, 8, 9, 10, 11, 12, 13, 14, 15, 20, 21, 22, 23] → f.get i = g.get i) ∧
    (f.get 3).extractLsb' 0 6 = (g.get 3).extractLsb' 0 6 ∧
    (f.get 7).extractLsb' 0 4 = (g.get 7).extractLsb' 0 4 := by decide +kernel

/-- The lower end of each tier and a value at its upper end; a value on each side of the range. -/
theorem wit_DivisorTierAndReload :
    ((1 : Rat) ≤ 1 ∧ (999 / 100 : Rat) < 10) ∧ ((10 : Rat) ≤ 10 ∧ (99 : Rat) < 100) ∧
    ((100 : Rat) ≤ 100 ∧ (999 : Rat) < 1000) ∧ ((1000 : Rat) ≤ 1000 ∧ (99999 : Rat) < 100000) ∧
    ((999 / 1000 : Rat) < 1 ∧ (100000 : Rat) ≤ 100000) := by norm_num

theorem wit_DacQuantisation : ((0 : Rat) ≤ 0 ∧ (9999 / 1000 : Rat) < 10) ∧ (0 : Rat) ≤ 9999 / 1000 := by norm_num

theorem wit_DutyCodeRoundTrip : ((0 : Rat) ≤ 0 ∧ (0 : Rat) ≤ 1 ∧ (1 : Rat) ≤ 1) ∧ 65535 ≤ 65535 ∧ 24 + 1 < 26 := by
  norm_num

end Sys2Proof.Tests
end

section
/-! The shape of a step (00_scope.md R14): what it runs with an input and what it runs without one. -/
namespace Sys2Proof.Machine

/-- Settles O10: fetching takes `m` off the inbox, and a step runs the instruction it fetched. -/
theorem stepRunsDecoded : Obligations.StepRunsDecoded := by
  intro s m rest i hinbox hdecode
  have hfetch : fetch s = some (.ok i, { s with inbox := rest }) := by
    rw [fetch_cons hinbox, hdecode]
  exact step_of_fetch_ok hfetch

/-- Settles O11: with nothing to take, fetching offers BUILD_STEP in BUILD and nothing in any other state. -/
theorem stepWithoutInput : Obligations.StepWithoutInput := by
  intro s hinbox
  have hfetch := fetch_nil hinbox
  constructor
  · intro hbuild
    rw [if_pos hbuild] at hfetch
    exact step_of_fetch_ok hfetch
  · intro hwaits
    rw [if_neg hwaits] at hfetch
    exact step_of_fetch_none hfetch

end Sys2Proof.Machine
end

section
/-! What one instruction can do (00_scope.md R14, 45_host_commands.md R280): the inversion of `exec` from
which the statements about every step are derived. -/
namespace Sys2Proof.Machine

/-! ### The analog-output code -/

/-- CONV_DAC gives a code of 12 bits (41_conversion.md R173). -/
theorem convDac_le (v : Rat) : (convDac v).1.toNat ≤ 4095 := by
  unfold convDac
  by_cases hhigh : 10 ≤ v
  · simp [hhigh]
  by_cases hlow : v < 0
  · simp [hhigh, hlow]
  have hfloor : (v * 4095 / 10).floor < ((4095 : Nat) : Int) := by
    rw [Rat.floor_lt_iff]
    push_cast
    linarith
  simp only [hhigh, hlow, if_false, BitVec.toNat_ofNat]
  exact (Nat.mod_le _ _).trans (Int.toNat_le.2 hfloor.le)

/-- Writing a 12-bit code, or nothing when the index is out of range, keeps the codes in range. -/
theorem dacInRange_setIfInBounds {s : State} (h : s.DacInRange) (k : Nat) {code : Half}
    (hcode : code.toNat ≤ 4095) :
    State.DacInRange { s with dacCode := s.dacCode.setIfInBounds k code } := by
  intro c
  rw [Vector.get_eq_getElem, Vector.getElem_setIfInBounds]
  split
  · exact hcode
  · exact h c

/-! ### What a SET_* command may write -/

/-- `s` with the output registers and settings (10_state.md R34-R40) of `r`. -/
def State.withRegisters (s r : State) : State :=
  { s with
    ledCtrl := r.ledCtrl, ledVal := r.ledVal, dout := r.dout, dutyCode := r.dutyCode
    pwmDiv := r.pwmDiv, dacCode := r.dacCode, baudReg := r.baudReg, parity := r.parity
    stop := r.stop, term := r.term, aiMode := r.aiMode }

theorem answered_nil (s : State) : s.answered [] = s := by
  simp only [State.answered, List.append_nil]

/-- Everything the write of SET_AOUT does: the code, and a range warning or none. -/
theorem writeAout_eq (c : BitVec 4) (v : Rat) (s : State) :
    writeAout c v s = State.answered
      { s with dacCode := s.dacCode.setIfInBounds c.toNat (convDac v).1 }
      ((convDac v).2.toList.map (.rangeWarning (c.extractLsb' 0 1))) := by
  unfold writeAout
  rcases convDac v with ⟨code, _ | side⟩
  · exact (answered_nil _).symm
  · rfl

/-! ### The inversion of `exec` -/

/-- The HOST task SVC_READ and SVC_WRITE queue (43_service_queue.md R229, R230). -/
def hostTask (slot : BitVec 8) (tag : Half) : Task :=
  { slot := slotOperand slot, origin := .host, tag := tag }

/-- `Effect i s t`: the instruction `i` may lead from `s` to `t`. One constructor per outcome the rules
know. -/
inductive Effect : Instr → State → State → Prop
  /-- A host command a check refuses (45_host_commands.md R280). -/
  | refused {i s} (hi : isHostCommand i = true) (cause : Cause) :
      Effect i s (s.answered [.cmdError (Laws.rowOpcode i) cause])
  /-- An environment input in a state that ignores it (44_scheduler.md R258). -/
  | ignored {i s} (hi : isHostCommand i = false) : Effect i s s
  /-- A SET_* command writes output registers or settings and may warn of a range (R281-R288). -/
  | configured {i s} (hi : isSetCommand i = true) (r : State) (evs : List Event)
      (hwarn : ∀ e ∈ evs, ∃ c side, e = .rangeWarning c side)
      (hdac : s.DacInRange → r.DacInRange) (hbaud : s.BaudLegal → r.BaudLegal) :
      Effect i s ((s.withRegisters r).answered evs)
  /-- OPEN queues its nineteen reads (R251). -/
  | opened {s} (hidle : s.fsm = .idle) (hroom : s.qlen + 19 ≤ s.par.qDepth) :
      Effect (.openCmd 0) s
        { s with queue := s.queue ++ openTasks, openRem := 19, openRej := false, fsm := .build }
  /-- CLOSE releases the handle if there is one (R252). -/
  | shut {s} (hopen : s.fsm ≠ .closed) :
      Effect (.closeCmd 0) s { s with
        dly := 0, fsm := .closed, outs := s.outs ++ if s.fsm = .idle then [] else [.xferRelease] }
  /-- SVC_READ queues a task (R229). -/
  | readQueued {s} (slot : BitVec 8) (tag : Half) (hroom : s.qlen ≠ s.par.qDepth) :
      Effect (.svcRead slot tag) s { s with queue := s.queue ++ [hostTask slot tag] }
  /-- SVC_WRITE writes the slot's value and queues a task (R230). -/
  | writeQueued {s} (slot : BitVec 8) (tag value : Half) (hroom : s.qlen ≠ s.par.qDepth) :
      Effect (.svcWrite slot tag 0 value) s
        { s.setSlot (slotOperand slot) value with queue := s.queue ++ [hostTask slot tag] }
  /-- BUILD_STEP builds a frame and requests the exchange (R253). -/
  | built {s} (hbuild : s.fsm = .build) : Effect .buildStep s (buildFrame s)
  /-- A reply is dispatched and the next cycle scheduled (R254). -/
  | replied {s} (rx : Frame) (hxfer : s.fsm = .xfer) :
      Effect (.xferDone rx) s (schedule (dispatchReply rx s))
  /-- A failed exchange is reported and the next cycle scheduled (R255). -/
  | failed {s} (reason : Byte) (hxfer : s.fsm = .xfer) :
      Effect (.xferFail reason) s (schedule (s.emit (.transportError reason)))
  /-- A TICK counts down (R257). -/
  | ticked {s} (hwait : s.fsm = .wait) : Effect .tick s (countTick s)

/-- A SET_* command that writes registers only. -/
theorem Effect.of_registers {i : Instr} {s : State} (r : State) (hi : isSetCommand i = true)
    (hdac : s.DacInRange → r.DacInRange) (hbaud : s.BaudLegal → r.BaudLegal) :
    Effect i s (s.withRegisters r) := by
  have h := Effect.configured hi r [] (fun _ he => nomatch he) hdac hbaud
  rwa [answered_nil] at h

/-- A host command is refused, or has the effect of its pseudocode. -/
theorem effect_of_command {i : Instr} {s t : State} {op : Byte} {checks : List Check}
    {act : State → State}
    (h : Host.Outcome.next (φ := Fault) (ρ := Refusal) (command op checks act s) = .next t)
    (hi : isHostCommand i = true) (hop : Laws.rowOpcode i = op)
    (hact : firstCause checks = none → Effect i s (act s)) : Effect i s t := by
  obtain rfl := Host.Outcome.next.inj h
  rcases command_cases op checks act s with ⟨c, -, hc⟩ | ⟨hpass, hc⟩
  · rw [hc, ← hop]
    exact .refused hi c
  · rw [hc]
    exact hact hpass

/-- An input that takes effect in one state of the sequencer and is ignored in the others. -/
theorem effect_of_enabled {i : Instr} {s s' t : State} {f : Fsm}
    (h : (if s.fsm = f then .next s' else .next s : Host.Outcome State Fault Refusal) = .next t)
    (hi : isHostCommand i = false) (hrun : s.fsm = f → Effect i s s') : Effect i s t := by
  split at h
  · obtain rfl := Host.Outcome.next.inj h
    exact hrun ‹_›
  · obtain rfl := Host.Outcome.next.inj h
    exact .ignored hi

/-- SET_AOUT, accepted (45_host_commands.md R285). -/
theorem effect_setAout (rsv : BitVec 20) (c : BitVec 4) (num den : Word) (s : State) :
    Effect (.setAout rsv c num den) s (writeAout c (ratOperand num den) s) := by
  rw [writeAout_eq]
  refine .configured rfl { s with dacCode := s.dacCode.setIfInBounds c.toNat (convDac _).1 } _
    (fun e he => ?_) (fun h => dacInRange_setIfInBounds h _ (convDac_le _)) id
  obtain ⟨side, -, rfl⟩ := List.mem_map.1 he
  exact ⟨_, side, rfl⟩

/-- The check of SET_RS485_BAUD lets only legal settings pass (10_state.md R38). -/
theorem baudLegal_of_baudCheck {baud : BitVec 24} (h : (baudCheck baud).1 = false) :
    1 ≤ (BitVec.ofNat 16 (baud.toNat / 100)).toNat := by
  rw [← Bool.not_eq_true, baudCheck_fails] at h
  push Not at h
  obtain ⟨hne, hmod, hle⟩ := h
  have hpos : baud.toNat ≠ 0 := fun h0 => hne (BitVec.eq_of_toNat_eq h0)
  rw [BitVec.toNat_ofNat]
  omega

/-- OPEN, accepted (44_scheduler.md R251). -/
theorem effect_open {rsv : BitVec 24} {s : State}
    (h : firstCause [reservedCheck rsv, (s.fsm != .idle, .badState), openRoomCheck s] = none) :
    Effect (.openCmd rsv) s
      { enqueueAll openTasks s with openRem := 19, openRej := false, fsm := .build } := by
  simp only [firstCause_eq_none, List.forall_mem_cons, reservedCheck_passes] at h
  obtain ⟨rfl, hidle, hroom, -⟩ := h
  rw [← Bool.not_eq_true, openRoomCheck_fails, not_lt] at hroom
  rw [enqueueAll_of_room (ts := openTasks) hroom]
  exact .opened (by simpa using hidle) hroom

/-- CLOSE, accepted (44_scheduler.md R252). -/
theorem effect_close {rsv : BitVec 24} {s : State}
    (h : firstCause [reservedCheck rsv, (s.fsm == .closed, .badState)] = none) :
    Effect (.closeCmd rsv) s
      { (if s.fsm = .idle then s else s.emit .xferRelease) with dly := 0, fsm := .closed } := by
  simp only [firstCause_eq_none, List.forall_mem_cons, reservedCheck_passes] at h
  obtain ⟨rfl, hopen, -⟩ := h
  have heffect := Effect.shut (s := s) (by simpa using hopen)
  split_ifs at heffect ⊢
  · rwa [List.append_nil] at heffect
  · exact heffect

/-- SVC_READ, accepted (43_service_queue.md R229). -/
theorem effect_svcRead {slot : BitVec 8} {tag : Half} {s : State}
    (h : firstCause [indexCheck 18 slot, closedCheck s, fullCheck s] = none) :
    Effect (.svcRead slot tag) s (enqueueAll [hostTask slot tag] s) := by
  simp only [firstCause_eq_none, List.forall_mem_cons] at h
  obtain ⟨-, -, hroom, -⟩ := h
  rw [← Bool.not_eq_true, fullCheck_fails] at hroom
  rw [enqueueAll_one hroom]
  exact .readQueued slot tag hroom

/-- SVC_WRITE, accepted (43_service_queue.md R230). -/
theorem effect_svcWrite {slot : BitVec 8} {tag value : Half} {prsv : BitVec 48} {s : State}
    (h : firstCause [reservedCheck prsv, indexCheck 18 slot, closedCheck s, fullCheck s] = none) :
    Effect (.svcWrite slot tag prsv value) s
      (enqueueAll [hostTask slot tag] (s.setSlot (slotOperand slot) value)) := by
  simp only [firstCause_eq_none, List.forall_mem_cons, reservedCheck_passes] at h
  obtain ⟨rfl, -, -, hroom, -⟩ := h
  rw [← Bool.not_eq_true, fullCheck_fails] at hroom
  rw [enqueueAll_one (s := s.setSlot (slotOperand slot) value) hroom]
  exact .writeQueued slot tag value hroom

/-- Everything an instruction can do. -/
theorem exec_effect {i : Instr} {s t : State} (h : exec i s = .next t) : Effect i s t := by
  cases i with
  | openCmd rsv => exact effect_of_command h rfl rfl effect_open
  | closeCmd rsv => exact effect_of_command h rfl rfl effect_close
  | setLed rsv ctrl val =>
    exact effect_of_command h rfl rfl
      (fun _ => .of_registers { s with ledCtrl := ctrl, ledVal := val } rfl id id)
  | setDout rsv mask =>
    exact effect_of_command h rfl rfl (fun _ => .of_registers { s with dout := mask } rfl id id)
  | setPwmDuty rsv k num den =>
    exact effect_of_command h rfl rfl (fun _ => .of_registers { s with
      dutyCode := s.dutyCode.setIfInBounds k.toNat (convDuty (ratOperand num den)) } rfl id id)
  | setPwmFreq rsv g num den =>
    exact effect_of_command h rfl rfl (fun _ => .of_registers { s with
      pwmDiv := s.pwmDiv.setIfInBounds g.toNat (convFreq2Div (ratOperand num den)) } rfl id id)
  | setAout rsv c num den =>
    exact effect_of_command h rfl rfl (fun _ => effect_setAout rsv c num den s)
  | setRs485Baud baud =>
    refine effect_of_command h rfl rfl (fun hpass => ?_)
    have hbaud : (baudCheck baud).1 = false := firstCause_eq_none.1 hpass _ List.mem_cons_self
    exact .of_registers { s with baudReg := BitVec.ofNat 16 (baud.toNat / 100) } rfl id
      fun _ => baudLegal_of_baudCheck hbaud
  | setRs485Mode rsv stop parity =>
    exact effect_of_command h rfl rfl
      (fun _ => .of_registers { s with parity := parity, stop := stop } rfl id id)
  | setBoardCfg rsv ai2 ai1 term =>
    exact effect_of_command h rfl rfl
      (fun _ => .of_registers { s with term := term, aiMode := #v[ai1, ai2] } rfl id id)
  | svcRead slot tag => exact effect_of_command h rfl rfl effect_svcRead
  | svcWrite slot tag prsv value => exact effect_of_command h rfl rfl effect_svcWrite
  | tick => exact effect_of_enabled h rfl .ticked
  | xferDone rx => exact effect_of_enabled h rfl (.replied rx)
  | xferFail reason => exact effect_of_enabled h rfl (.failed reason)
  | buildStep =>
    simp only [exec, execBuildStep] at h
    split at h
    · obtain rfl := Host.Outcome.next.inj h
      exact .built ‹_›
    · exact nomatch h

end Sys2Proof.Machine
end

section
/-! The slot table and the derived configuration words (10_state.md R41, R44). -/
namespace Sys2Proof.Machine

/-- The bits above a value's own width are zero in its extension. -/
theorem extract_setWidth_above {n m : Nat} (x : BitVec n) {start len : Nat} (h : n ≤ start) :
    (x.setWidth m).extractLsb' start len = 0 := by
  apply BitVec.eq_of_getLsbD_eq
  intro i hi
  simp [BitVec.getLsbD_of_ge x (start + i) (by omega)]

/-- The fields of MODE_WORD (R41). -/
theorem modeWord_fields (s : State) :
    (modeWord s).extractLsb' 0 3 = s.par.databits8Code ∧ (modeWord s).extractLsb' 3 2 = s.parity ∧
    (modeWord s).extractLsb' 5 2 = s.stop ∧ (modeWord s).extractLsb' 7 9 = 0 := by
  unfold modeWord
  refine ⟨?_, ?_, ?_, extract_setWidth_above _ (by decide)⟩ <;>
    rw [BitVec.extractLsb'_setWidth_of_le (by decide)]
  · rw [extract_append_low _ _ (by decide), extract_all]
  · rw [extract_append_high (b := 3) _ _ (by decide), extract_append_low _ _ (by decide)]
    exact extract_all _
  · rw [extract_append_high (b := 3) _ _ (by decide), extract_append_high (b := 2) _ _ (by decide)]
    exact extract_all _

/-- The fields of BOARD_WORD (R41). -/
theorem boardWord_fields (s : State) :
    (boardWord s).extractLsb' 0 1 = s.term ∧ (boardWord s).extractLsb' 1 1 = s.aiMode.get 0 ∧
    (boardWord s).extractLsb' 2 1 = s.aiMode.get 1 ∧ (boardWord s).extractLsb' 3 13 = 0 := by
  unfold boardWord
  refine ⟨?_, ?_, ?_, extract_setWidth_above _ (by decide)⟩ <;>
    rw [BitVec.extractLsb'_setWidth_of_le (by decide)]
  · rw [extract_append_low _ _ (by decide), extract_all]
  · rw [extract_append_high (b := 1) _ _ (by decide), extract_append_low _ _ (by decide)]
    exact extract_all _
  · rw [extract_append_high (b := 1) _ _ (by decide), extract_append_high (b := 1) _ _ (by decide)]
    exact extract_all _

/-- Every slot's address fits the 13 bits of the echo word (R44). -/
theorem slotAddr_masked : ∀ i : SlotIdx, slotAddr i &&& 0x1FFF = slotAddr i := by decide

/-- Settles O22: the table is read off its definition, the derived words field by field. -/
theorem derivedWordLayout : Obligations.DerivedWordLayout := by
  refine ⟨rfl, fun i => ⟨rfl, slotAddr_masked i⟩, rfl, rfl, rfl, fun s => ⟨rfl, ?_⟩⟩
  obtain ⟨hdata, hparity, hstop, hmodeZero⟩ := modeWord_fields s
  exact ⟨hdata, hparity, hstop, hmodeZero, boardWord_fields s⟩

end Sys2Proof.Machine
end

section
/-! What the frame build, a completion and a reply leave alone, and from it that a step only appends output
(20_memory.md R92, R95) and who writes the shared state (10_state.md R43, R47, R49, R51). -/
namespace Sys2Proof.Machine

/-! ### Frames of the cycle's operations -/

/-- The frame build writes the slot values, the queue, the in-flight task, `s.tx` and `s.fsm`, and emits one
request; the in-flight task stays, or one is admitted where there was none (43_service_queue.md R222). -/
theorem buildFrame_frame (s : State) : ∃ vals q v task tx,
    buildFrame s = { s with
      slotVal := vals, queue := q, inflightV := v, inflight := task, tx := tx, fsm := .xfer
      outs := s.outs ++ [.xferReq tx] } ∧
    ((v = s.inflightV ∧ task = s.inflight) ∨ (s.inflightV = false ∧ v = true)) := by
  obtain ⟨vals, ts, hrefresh, -⟩ := cfgRefresh_frame s
  rw [buildFrame_eq, hrefresh]
  rcases admitNext_cases { s with slotVal := vals, queue := s.queue ++ ts } with
    ⟨hadmit, -⟩ | ⟨hclear, t, l, r, -, hadmit⟩
  · rw [hadmit]
    exact ⟨_, _, _, _, _, rfl, .inl ⟨rfl, rfl⟩⟩
  · rw [hadmit]
    exact ⟨_, _, _, _, _, rfl, .inr ⟨hclear, rfl⟩⟩

/-- COMPLETE writes the slot values, the valid bit and the open bookkeeping, and appends events; the
valid bit is at most cleared, and only where the echo names the in-flight task's address (R224, R226). -/
theorem complete_frame (addr : BitVec 13) (value : Half) (err : Bool) (s : State) :
    ∃ vals v rej rem evs,
      complete addr value err s = { s with
        slotVal := vals, inflightV := v, openRej := rej, openRem := rem, outs := s.outs ++ evs } ∧
      (v = s.inflightV ∨
        s.inflightV = true ∧ v = false ∧ addr.setWidth 16 = slotAddr s.inflight.slot) := by
  rcases complete_cases addr value err s with ⟨hc, -⟩ | ⟨t, ht, haddr, hc⟩
  · refine ⟨s.slotVal, s.inflightV, s.openRej, s.openRem, [], ?_, .inl rfl⟩
    rw [hc, List.append_nil]
  · obtain ⟨hset, rfl⟩ := inflightTask_eq_some.1 ht
    rw [hc, completeMatch_eq, List.append_assoc]
    exact ⟨_, _, _, _, _, rfl, .inr ⟨hset, rfl, haddr⟩⟩

/-- A reply with a wrong CRC is reported and changes nothing (44_scheduler.md R254). -/
theorem dispatchReply_of_invalid {rx : Frame} (s : State) (h : crcOk rx = false) :
    dispatchReply rx s = s.answered [.frameError .crcMismatch rx] := by
  rcases dispatchReply_cases rx s with ⟨-, hd⟩ | ⟨d, -, hcrc, -⟩
  · exact hd
  · rw [h] at hcrc
    exact nomatch hcrc

/-- The echoed address of a decoded reply (42_frame_codec.md R202). -/
theorem decodeFrame_echoAddr {rx : Frame} {modes : Vector (BitVec 1) 2} {d : Decoded}
    (h : decodeFrame rx modes = some d) : d.echoAddr = echoAddr rx := by
  unfold decodeFrame at h
  split at h
  · rw [← Option.some.inj h]
  · exact nomatch h

/-- What a valid reply writes (R254), with the condition on which the valid bit may change. -/
theorem dispatchReply_frame {rx : Frame} (s : State) (h : crcOk rx = true) :
    ∃ n vals v rej rem evs,
      dispatchReply rx s = { s with
        snap := n, snapV := true, slotVal := vals, inflightV := v, openRej := rej, openRem := rem
        outs := s.outs ++ evs } ∧
      (v = s.inflightV ∨
        s.inflightV = true ∧ v = false ∧ (echoAddr rx).setWidth 16 = slotAddr s.inflight.slot) := by
  rcases dispatchReply_cases rx s with ⟨hcrc, -⟩ | ⟨d, hdecode, -, hd⟩
  · rw [h] at hcrc
    exact nomatch hcrc
  · obtain ⟨vals, v, rej, rem, evs, hc, hv⟩ := complete_frame d.echoAddr d.echoValue d.echoErr
      { s with snap := d.snapshot, snapV := true }
    rw [decodeFrame_echoAddr hdecode] at hv
    rw [hd, hc, State.emit, List.append_assoc]
    exact ⟨_, _, _, _, _, _, rfl, hv⟩

/-! ### A step only appends output -/

/-- No instruction writes a parameter or the inbox, and each only appends to the output. -/
theorem effect_appends {i : Instr} {s t : State} (h : Effect i s t) :
    t.par = s.par ∧ t.inbox = s.inbox ∧ ∃ evs, t.outs = s.outs ++ evs := by
  have hsilent : ∃ evs, s.outs = s.outs ++ evs := ⟨[], (List.append_nil _).symm⟩
  cases h with
  | refused => exact ⟨rfl, rfl, _, rfl⟩
  | ignored => exact ⟨rfl, rfl, hsilent⟩
  | configured => exact ⟨rfl, rfl, _, rfl⟩
  | opened => exact ⟨rfl, rfl, hsilent⟩
  | shut => exact ⟨rfl, rfl, _, rfl⟩
  | readQueued => exact ⟨rfl, rfl, hsilent⟩
  | writeQueued => exact ⟨rfl, rfl, hsilent⟩
  | built =>
    obtain ⟨_, _, _, _, _, hb, -⟩ := buildFrame_frame s
    rw [hb]
    exact ⟨rfl, rfl, _, rfl⟩
  | replied rx =>
    rw [schedule_eq]
    cases hcrc : crcOk rx with
    | false =>
      rw [dispatchReply_of_invalid s hcrc]
      exact ⟨rfl, rfl, _, rfl⟩
    | true =>
      obtain ⟨_, _, _, _, _, _, hd, -⟩ := dispatchReply_frame s hcrc
      rw [hd]
      exact ⟨rfl, rfl, _, rfl⟩
  | failed =>
    rw [schedule_eq]
    exact ⟨rfl, rfl, _, rfl⟩
  | ticked =>
    rw [countTick_eq]
    exact ⟨rfl, rfl, hsilent⟩

/-- Settles O12: the step takes the head of the inbox, and what it runs only appends. -/
theorem stepAppendsOutput : Obligations.StepAppendsOutput := by
  intro s t h
  rcases step_cases h with ⟨hempty, -, rfl⟩ | ⟨hempty, -, hexec⟩ | ⟨m, rest, i, hbox, -, hexec⟩ |
    ⟨m, rest, op, hbox, -, rfl⟩
  · exact ⟨rfl, by rw [hempty, List.tail_nil], [], (List.append_nil _).symm⟩
  · obtain ⟨hpar, hinbox, houts⟩ := effect_appends (exec_effect hexec)
    exact ⟨hpar, by rw [hinbox, hempty, List.tail_nil], houts⟩
  · rw [hbox]
    exact effect_appends (exec_effect hexec)
  · rw [hbox]
    exact ⟨rfl, rfl, _, rfl⟩

/-! ### Who writes the shared state -/

/-- The snapshot and its flag, the frame buffer, the in-flight register and its valid bit are the same in
`s` and `t`. -/
structure KeepsExchange (s t : State) : Prop where
  snap : t.snap = s.snap
  snapV : t.snapV = s.snapV
  tx : t.tx = s.tx
  inflight : t.inflight = s.inflight
  inflightV : t.inflightV = s.inflightV

/-- Everything but BUILD_STEP and a valid XFER_DONE keeps the exchange's state, and everything else but
SVC_WRITE keeps the slot values too. -/
theorem effect_writers {i : Instr} {s t : State} (h : Effect i s t) :
    (KeepsExchange s t ∧
      (t.slotVal = s.slotVal ∨ ∃ slot tag value, i = .svcWrite slot tag 0 value)) ∨
    (i = .buildStep ∧ t = buildFrame s) ∨
    (∃ rx, i = .xferDone rx ∧ crcOk rx = true ∧ t = schedule (dispatchReply rx s)) := by
  cases h with
  | refused => exact .inl ⟨⟨rfl, rfl, rfl, rfl, rfl⟩, .inl rfl⟩
  | ignored => exact .inl ⟨⟨rfl, rfl, rfl, rfl, rfl⟩, .inl rfl⟩
  | configured => exact .inl ⟨⟨rfl, rfl, rfl, rfl, rfl⟩, .inl rfl⟩
  | opened => exact .inl ⟨⟨rfl, rfl, rfl, rfl, rfl⟩, .inl rfl⟩
  | shut => exact .inl ⟨⟨rfl, rfl, rfl, rfl, rfl⟩, .inl rfl⟩
  | readQueued => exact .inl ⟨⟨rfl, rfl, rfl, rfl, rfl⟩, .inl rfl⟩
  | writeQueued slot tag value => exact .inl ⟨⟨rfl, rfl, rfl, rfl, rfl⟩, .inr ⟨slot, tag, value, rfl⟩⟩
  | built => exact .inr (.inl ⟨rfl, rfl⟩)
  | replied rx =>
    cases hcrc : crcOk rx with
    | false =>
      rw [dispatchReply_of_invalid s hcrc, schedule_eq]
      exact .inl ⟨⟨rfl, rfl, rfl, rfl, rfl⟩, .inl rfl⟩
    | true => exact .inr (.inr ⟨rx, rfl, hcrc, rfl⟩)
  | failed =>
    rw [schedule_eq]
    exact .inl ⟨⟨rfl, rfl, rfl, rfl, rfl⟩, .inl rfl⟩
  | ticked =>
    rw [countTick_eq]
    exact .inl ⟨⟨rfl, rfl, rfl, rfl, rfl⟩, .inl rfl⟩

/-- An echo that matched carries the address bits of the slot (42_frame_codec.md R202). -/
theorem echo_bits_of_match {rx : Frame} {addr : Half} (h : (echoAddr rx).setWidth 16 = addr) :
    (rd16le rx 2).extractLsb' 0 13 = addr.extractLsb' 0 13 := by
  rw [← h, BitVec.extractLsb'_setWidth_of_le (by decide), extract_all]
  rfl

/-- Settles O46: the exchange's state is kept but for its two writers, and each of those writes no more than
its share. -/
theorem writersOfSharedState : Obligations.WritersOfSharedState := by
  intro i s t h
  rcases effect_writers (exec_effect h) with ⟨hkeep, hslot⟩ | ⟨rfl, rfl⟩ | ⟨rx, rfl, hcrc, rfl⟩
  · have hbit : ∀ b, s.inflightV = b → t.inflightV = !b → False := fun b hs ht => by
      simp [hkeep.inflightV, hs] at ht
    exact ⟨fun hne => .inr (.inr (hslot.resolve_left hne)),
      (Or.elim · (absurd hkeep.snap) (absurd hkeep.snapV)), absurd hkeep.tx, absurd hkeep.inflight,
      fun hs ht => (hbit _ hs ht).elim, fun hs ht => (hbit _ hs ht).elim⟩
  · obtain ⟨vals, q, v, task, tx, hb, htask⟩ := buildFrame_frame s
    rw [hb]
    refine ⟨fun _ => .inl rfl, (Or.elim · (absurd rfl) (absurd rfl)), fun _ => rfl,
      fun hne => ⟨rfl, htask.resolve_left fun hsame => hne hsame.2⟩, fun _ _ => rfl,
      fun hset hclear => ?_⟩
    rcases htask with ⟨hsame, -⟩ | ⟨hnone, -⟩
    · exact absurd (hclear.symm.trans (hsame.trans hset)) Bool.false_ne_true
    · exact absurd (hnone.symm.trans hset) Bool.false_ne_true
  · obtain ⟨n, vals, v, rej, rem, evs, hd, hv⟩ := dispatchReply_frame s hcrc
    rw [hd, schedule_eq]
    refine ⟨fun _ => .inr (.inl ⟨rx, rfl, hcrc⟩), fun _ => ⟨rx, rfl, hcrc⟩, absurd rfl, absurd rfl,
      fun hclear hset => ?_, fun hset hclear => ⟨rx, rfl, hcrc, ?_⟩⟩
    · rcases hv with hsame | ⟨hinflight, -, -⟩
      · exact absurd (hclear.symm.trans (hsame.symm.trans hset)) Bool.false_ne_true
      · exact absurd (hclear.symm.trans hinflight) Bool.false_ne_true
    · rcases hv with hsame | ⟨-, -, haddr⟩
      · exact absurd (hclear.symm.trans (hsame.trans hset)) Bool.false_ne_true
      · exact echo_bits_of_match haddr

end Sys2Proof.Machine
end

section
/-! The trailer of an outbound frame passes the check of a reply (40_crc.md R154, R155; 42_frame_codec.md
R198). -/
namespace Sys2Proof.Machine

/-- A trailer write leaves the 24 bytes before it. -/
theorem take_withTrailer (f : Frame) : (withTrailer f).toList.take 24 = f.toList.take 24 := by
  simp only [withTrailer, wr16le, Vector.toList_set]
  rw [List.take_set_of_le (by decide), List.take_set_of_le (by decide)]

/-- The last two bytes of a frame with a trailer are the CRC of the others, low byte first. -/
theorem drop_withTrailer (f : Frame) :
    (withTrailer f).toList.drop 24 =
      [(crcCompute (f.toList.take 24)).extractLsb' 0 8, (crcCompute (f.toList.take 24)).extractLsb' 8 8] := by
  refine List.ext_getElem (by simp) fun i hi _ => ?_
  have htwo : i < 2 := by simpa using hi
  simp only [withTrailer, wr16le, List.getElem_drop, Vector.getElem_toList, Vector.getElem_set]
  interval_cases i <;> rfl

/-- A frame with a trailer has a right one. -/
theorem crcOk_withTrailer (f : Frame) : crcOk (withTrailer f) = true := by
  have hlen : (withTrailer f).toList.length = 26 := Vector.length_toList
  simp [crcOk, crcValidate, hlen, take_withTrailer, drop_withTrailer]

theorem crcOk_encodeFrame (s : State) : crcOk (encodeFrame s) = true := crcOk_withTrailer _

end Sys2Proof.Machine
end

section
/-! The invariant (10_state.md R33, R37, R38, R45, R48-R51, 30_encoding.md R120), one rule per operation of
the state; a step keeps it because the operations it is made of do. -/
namespace Sys2Proof.Machine

/-! ### Tasks -/

/-- An OPEN or CFG task's tag is its slot index (30_encoding.md R120). -/
def Task.TagIsSlot (t : Task) : Prop := t.origin ≠ .host → t.tag = BitVec.ofNat 16 t.slot.val

theorem tagIsSlot_hostTask (slot : BitVec 8) (tag : Half) : (hostTask slot tag).TagIsSlot :=
  fun h => absurd rfl h

theorem tagIsSlot_openTasks : ∀ t ∈ openTasks, t.TagIsSlot := by
  intro t ht
  obtain ⟨i, -, rfl⟩ := List.mem_map.1 ht
  exact fun _ => rfl

theorem openCount_append (ts us : List Task) : openCount (ts ++ us) = openCount ts + openCount us :=
  List.countP_append

theorem openCount_singleton (t : Task) : openCount [t] = if t.origin = .opened then 1 else 0 := by
  simp [openCount, List.countP_singleton]

/-- OPEN queues nineteen tasks of its own (44_scheduler.md R251). -/
theorem openCount_openTasks : openCount openTasks = 19 := by decide

/-- Tasks of which none is OPEN's count nothing. -/
theorem openCount_eq_zero {ts : List Task} (h : ∀ t ∈ ts, t.origin ≠ .opened) : openCount ts = 0 :=
  List.countP_eq_zero.2 fun t ht => by simpa using h t ht

/-- Tasks appended to the queue stand before the in-flight one. -/
theorem tasks_append_perm (s : State) (ts : List Task) :
    (State.tasks { s with queue := s.queue ++ ts }).Perm (s.tasks ++ ts) := by
  simp only [State.tasks, List.append_assoc]
  exact List.perm_append_comm.append_left s.queue

/-- Admission only moves a task (43_service_queue.md R222). -/
theorem tasks_admitNext (s : State) : (admitNext s).tasks.Perm s.tasks := by
  rcases admitNext_cases s with ⟨hsame, -⟩ | ⟨hclear, t, l, r, hq, hadmit⟩
  · rw [hsame]
  · rw [hadmit, tasks_of_inflight rfl, tasks_of_clear hclear, hq, List.append_assoc]
    exact (List.perm_append_singleton t r).append_left l

/-! ### The sequencer's state and the delay -/

@[simp] theorem admitNext_fsm (s : State) : (admitNext s).fsm = s.fsm := by
  rcases admitNext_cases s with ⟨h, -⟩ | ⟨-, t, l, r, -, h⟩ <;> rw [h]

@[simp] theorem cfgRefresh_fsm (s : State) : (cfgRefresh s).fsm = s.fsm := by
  obtain ⟨vals, ts, h, -⟩ := cfgRefresh_frame s
  rw [h]

@[simp] theorem dispatchReply_fsm (rx : Frame) (s : State) : (dispatchReply rx s).fsm = s.fsm := by
  cases hcrc : crcOk rx with
  | false => rw [dispatchReply_of_invalid s hcrc, answered_fsm]
  | true =>
    obtain ⟨n, vals, v, rej, rem, evs, hd, -⟩ := dispatchReply_frame s hcrc
    rw [hd]

/-- SCHEDULE never loads a delay of 0 (00_scope.md R8). -/
theorem periodTicks_ne_zero (p : Params) : p.periodTicks ≠ 0 := by
  have hlt := p.periodPred.isLt
  intro h
  have hnat := congrArg BitVec.toNat h
  simp only [Params.periodTicks, BitVec.toNat_ofNat, BitVec.ofNat_eq_ofNat] at hnat
  omega

namespace State.Inv

variable {s : State}

/-! ### The invariant under each operation -/

/-- Events keep the invariant, but for a DATA_READY before any snapshot (10_state.md R50). -/
theorem answered (h : s.Inv) {evs : List Event}
    (hquiet : s.snapV = false → ∀ n, Event.dataReady n ∉ evs) : (s.answered evs).Inv :=
  { h with
    snapQuiet := fun hv => ⟨(h.snapQuiet hv).1, fun n hn =>
      (List.mem_append.1 hn).elim ((h.snapQuiet hv).2 n) (hquiet hv n)⟩
    txOutstanding := fun hx => ⟨(h.txOutstanding hx).1, List.mem_append_left _ (h.txOutstanding hx).2⟩ }

/-- Inputs taken from the inbox do not matter. -/
theorem takeInput (h : s.Inv) (rest : List Msg) : State.Inv { s with inbox := rest } :=
  { h with }

/-- Slot values do not matter. -/
theorem setSlotVal (h : s.Inv) (vals : Vector Half 19) : State.Inv { s with slotVal := vals } :=
  { h with }

/-- A written slot value does not matter (10_state.md R43). -/
theorem setSlot (h : s.Inv) (i : SlotIdx) (v : Half) : (s.setSlot i v).Inv :=
  h.setSlotVal _

/-- Output registers and settings matter by their own bounds only. -/
theorem withRegisters (h : s.Inv) {r : State} (hdac : r.DacInRange) (hbaud : r.BaudLegal) :
    (s.withRegisters r).Inv :=
  { h with dacInRange := hdac, baudLegal := hbaud }

/-- Queueing tasks that are not OPEN's, within the queue's room (43_service_queue.md R221). -/
theorem enqueue (h : s.Inv) {ts : List Task} (hroom : s.qlen + ts.length ≤ s.par.qDepth)
    (htags : ∀ t ∈ ts, t.TagIsSlot) (hnoOpen : ∀ t ∈ ts, t.origin ≠ .opened) :
    State.Inv { s with queue := s.queue ++ ts } :=
  have hperm := tasks_append_perm s ts
  have hcount : openCount (State.tasks { s with queue := s.queue ++ ts }) = openCount s.tasks := by
    rw [openCount, hperm.countP_eq, ← openCount, openCount_append, openCount_eq_zero hnoOpen, Nat.add_zero]
  { h with
    queueFits := by simpa [State.QueueFits, State.qlen] using hroom
    openCounted := h.openCounted.trans hcount.symm
    tagsAreSlots := fun t ht =>
      (List.mem_append.1 (hperm.mem_iff.1 ht)).elim (h.tagsAreSlots t) (htags t) }

/-- CFG_REFRESH queues CFG tasks within the queue's room (R228). -/
theorem cfgRefresh (h : s.Inv) : (Machine.cfgRefresh s).Inv := by
  obtain ⟨vals, ts, hrefresh, -, hroom, hcfg⟩ := cfgRefresh_frame s
  rw [hrefresh]
  exact (h.setSlotVal vals).enqueue (hroom h.queueFits) (fun t ht _ => (hcfg t ht).2)
    fun t ht => by simp [(hcfg t ht).1]

/-- Admission moves a task; before OPEN it does not run (R222, R253). -/
theorem admitNext (h : s.Inv) (hopened : s.fsm ≠ .idle) : (Machine.admitNext s).Inv := by
  have hperm := tasks_admitNext s
  have hcount : openCount (Machine.admitNext s).tasks = openCount s.tasks := hperm.countP_eq _
  have htags : (Machine.admitNext s).TagsAreSlots := fun t ht => h.tagsAreSlots t (hperm.mem_iff.1 ht)
  rcases admitNext_cases s with ⟨hsame, -⟩ | ⟨-, t, l, r, hq, hadmit⟩
  · rwa [hsame]
  · have hfits := h.queueFits
    rw [hadmit] at htags hcount ⊢
    exact { h with
      queueFits := by
        simp only [State.QueueFits, State.qlen, hq, List.length_append, List.length_cons] at hfits ⊢
        omega
      openCounted := h.openCounted.trans hcount.symm
      tagsAreSlots := htags
      idleQuiet := fun hidle => absurd hidle hopened }

/-- Outside WAIT the delay counter is 0 (10_state.md R33). -/
theorem dly_eq_zero (h : s.Inv) (hwait : s.fsm ≠ .wait) : s.dly = 0 :=
  not_not.1 fun hdly => hwait (h.delayLive.2 hdly)

/-- The request of an exchange for a frame with a right trailer (44_scheduler.md R253). -/
theorem request (h : s.Inv) (hbuild : s.fsm = .build) {tx : Frame} (hcrc : crcOk tx = true) :
    State.Inv { s with tx := tx, fsm := .xfer, outs := s.outs ++ [.xferReq tx] } :=
  { h with
    delayLive := iff_of_false nofun (not_not.2 (h.dly_eq_zero (by simp [hbuild])))
    idleQuiet := nofun
    snapQuiet := fun hv => ⟨(h.snapQuiet hv).1, by simpa using (h.snapQuiet hv).2⟩
    txOutstanding := fun _ => ⟨hcrc, by simp⟩ }

/-- BUILD_STEP is a refresh, an admission and a request (44_scheduler.md R253). -/
theorem buildFrame (h : s.Inv) (hbuild : s.fsm = .build) : (Machine.buildFrame s).Inv := by
  rw [buildFrame_eq]
  exact (h.cfgRefresh.admitNext (by simp [hbuild])).request (by simp [hbuild]) (crcOk_encodeFrame _)

/-- A published snapshot (R254). -/
theorem publish (h : s.Inv) (n : Snapshot) : State.Inv { s with snap := n, snapV := true } :=
  { h with snapQuiet := nofun }

/-- COMPLETE_MATCH takes the in-flight task out and counts it off if it is OPEN's (R225, R227). -/
theorem completeMatch (h : s.Inv) {t : Task} (ht : s.inflightTask = some t) (value : Half) (err : Bool) :
    (Machine.completeMatch t value err s).Inv := by
  obtain ⟨hset, rfl⟩ := inflightTask_eq_some.1 ht
  have htasks := tasks_of_inflight hset
  have hcount := h.openCounted
  rw [State.OpenCounted, htasks, openCount_append, openCount_singleton] at hcount
  rw [completeMatch_eq]
  exact { h with
    openCounted := by
      rw [State.OpenCounted, tasks_of_clear rfl]
      dsimp only
      split_ifs at hcount ⊢ <;> bv_omega
    tagsAreSlots := fun t ht => h.tagsAreSlots t (by
      rw [tasks_of_clear rfl] at ht
      rw [htasks]
      exact List.mem_append_left _ ht)
    idleQuiet := fun hidle => absurd ((h.idleQuiet hidle).1.symm.trans hset) Bool.false_ne_true
    snapQuiet := fun hv => ⟨(h.snapQuiet hv).1, fun n hn => by
      have hold := (h.snapQuiet hv).2 n
      cases err <;> simp [hold] at hn⟩
    txOutstanding := fun hx => ⟨(h.txOutstanding hx).1,
      List.mem_append_left _ (List.mem_append_left _ (h.txOutstanding hx).2)⟩ }

/-- COMPLETE takes the in-flight task out or does nothing (R224, R226). -/
theorem complete (h : s.Inv) (addr : BitVec 13) (value : Half) (err : Bool) :
    (Machine.complete addr value err s).Inv := by
  rcases complete_cases addr value err s with ⟨hc, -⟩ | ⟨t, ht, -, hc⟩
  · rwa [hc]
  · rw [hc]
    exact h.completeMatch ht value err

/-- The reply of an exchange (R254). -/
theorem dispatchReply (h : s.Inv) (rx : Frame) : (Machine.dispatchReply rx s).Inv := by
  rcases dispatchReply_cases rx s with ⟨-, hd⟩ | ⟨d, -, -, hd⟩
  · rw [hd]
    exact h.answered fun _ _ => by simp
  · obtain ⟨vals, v, rej, rem, evs, hc, -⟩ := complete_frame d.echoAddr d.echoValue d.echoErr
      { s with snap := d.snapshot, snapV := true }
    rw [hd]
    refine ((h.publish d.snapshot).complete _ _ _).answered fun hv => ?_
    rw [hc] at hv
    exact nomatch hv

/-- SCHEDULE after an exchange (R256). -/
theorem schedule (h : s.Inv) (hxfer : s.fsm = .xfer) : (Machine.schedule s).Inv := by
  have hdly := h.dly_eq_zero (by simp [hxfer])
  rw [schedule_eq]
  cases pendingWork s with
  | true => exact { h with
      delayLive := iff_of_false nofun (not_not.2 hdly)
      idleQuiet := nofun
      txOutstanding := nofun }
  | false => exact { h with
      delayLive := iff_of_true rfl (periodTicks_ne_zero _)
      idleQuiet := nofun
      txOutstanding := nofun }

/-- The countdown of TICK (R257). -/
theorem countTick (h : s.Inv) (hwait : s.fsm = .wait) : (Machine.countTick s).Inv := by
  rw [countTick_eq]
  by_cases hlast : s.dly - 1 = 0
  · simp only [hlast, if_true]
    exact { h with
      delayLive := iff_of_false nofun (not_not.2 rfl)
      idleQuiet := nofun
      txOutstanding := nofun }
  · simp only [hlast, if_false]
    exact { h with delayLive := iff_of_true hwait hlast }

/-- OPEN queues its nineteen reads where nothing of OPEN's was queued (R251). -/
theorem openReads (h : s.Inv) (hidle : s.fsm = .idle) (hroom : s.qlen + 19 ≤ s.par.qDepth) :
    State.Inv { s with queue := s.queue ++ openTasks, openRem := 19, openRej := false, fsm := .build } := by
  obtain ⟨hclear, hrem⟩ := h.idleQuiet hidle
  have hnone : openCount s.queue = 0 := by
    have hcount := h.openCounted
    rw [State.OpenCounted, tasks_of_clear hclear, hrem] at hcount
    exact hcount.symm
  have htasks : State.tasks { s with
      queue := s.queue ++ openTasks, openRem := 19, openRej := false, fsm := .build } =
      s.queue ++ openTasks := tasks_of_clear hclear
  exact { h with
    queueFits := by simpa [State.QueueFits, State.qlen, openTasks] using hroom
    delayLive := iff_of_false nofun (not_not.2 (h.dly_eq_zero (by simp [hidle])))
    openCounted := by
      rw [State.OpenCounted, htasks, openCount_append, hnone, openCount_openTasks]
      rfl
    tagsAreSlots := fun t ht => by
      rw [htasks] at ht
      refine (List.mem_append.1 ht).elim (fun hq => h.tagsAreSlots t ?_) (tagIsSlot_openTasks t)
      exact List.mem_append_left _ hq
    idleQuiet := nofun
    txOutstanding := nofun }

/-- CLOSE stops the delay (R252). -/
theorem shut (h : s.Inv) : State.Inv { s with dly := 0, fsm := .closed } :=
  { h with
    delayLive := iff_of_false nofun (not_not.2 rfl)
    idleQuiet := nofun
    txOutstanding := nofun }

/-! ### The invariant under an instruction -/

/-- One more host task fits where the queue is not full. -/
theorem enqueueHost (h : s.Inv) (hroom : s.qlen ≠ s.par.qDepth) (slot : BitVec 8) (tag : Half) :
    State.Inv { s with queue := s.queue ++ [hostTask slot tag] } := by
  refine h.enqueue (Nat.lt_of_le_of_ne h.queueFits hroom) (fun t ht => ?_) (fun t ht => ?_)
  · rw [List.mem_singleton.1 ht]
    exact tagIsSlot_hostTask slot tag
  · rw [List.mem_singleton.1 ht]
    exact nofun

/-- Every outcome of an instruction keeps the invariant. -/
theorem effect {i : Instr} {t : State} (h : s.Inv) (he : Effect i s t) : t.Inv := by
  cases he with
  | refused => exact h.answered fun _ _ => by simp
  | ignored => exact h
  | configured _ r evs hwarn hdac hbaud =>
    refine (h.withRegisters (hdac h.dacInRange) (hbaud h.baudLegal)).answered fun _ n hn => ?_
    obtain ⟨c, side, hne⟩ := hwarn _ hn
    exact nomatch hne
  | opened hidle hroom => exact h.openReads hidle hroom
  | shut =>
    refine h.shut.answered fun _ n => ?_
    split_ifs <;> simp
  | readQueued slot tag hroom => exact h.enqueueHost hroom slot tag
  | writeQueued slot tag value hroom => exact (h.setSlot (slotOperand slot) value).enqueueHost hroom slot tag
  | built hbuild => exact h.buildFrame hbuild
  | replied rx hxfer => exact (h.dispatchReply rx).schedule ((dispatchReply_fsm rx s).trans hxfer)
  | failed reason hxfer =>
    have hreported : (s.emit (.transportError reason)).Inv := h.answered fun _ _ => by simp
    exact hreported.schedule hxfer
  | ticked hwait => exact h.countTick hwait

end State.Inv

/-- Settles O47: each outcome of a step is made of operations that keep the invariant. -/
theorem stepKeepsInvariant : Obligations.StepKeepsInvariant := by
  intro s t h hstep
  rcases step_cases hstep with ⟨-, -, rfl⟩ | ⟨-, -, hexec⟩ | ⟨m, rest, i, -, -, hexec⟩ |
    ⟨m, rest, op, -, -, rfl⟩
  · exact h
  · exact h.effect (exec_effect hexec)
  · exact (h.takeInput rest).effect (exec_effect hexec)
  · exact (h.takeInput rest).answered fun _ _ => by simp

end Sys2Proof.Machine
end

section
/-! The fields of an outbound frame read back from it (42_frame_codec.md R190-R197), and which state a
BUILD_STEP encodes (20_memory.md R94, 44_scheduler.md R253). -/
namespace Sys2Proof.Machine

/-! ### The fields of a frame -/

/-- The trailer leaves every byte before it (R198). -/
theorem rd8_withTrailer (f : Frame) {i : Nat} (h : i < 24) :
    rd8 (withTrailer f) i (by omega) = rd8 f i (by omega) :=
  rd8_wr16le_other f _ _ _ (.inl h)

/-- The trailer leaves every halfword before it (R198). -/
theorem rd16le_withTrailer (f : Frame) {i : Nat} (h : i + 1 < 24) :
    rd16le (withTrailer f) i (by omega) = rd16le f i (by omega) :=
  rd16le_wr16le_other f _ _ _ (.inr h)

/-- The output registers of `s` (10_state.md R34-R37) stand in bytes 5-23 of `f` (R193-R197). -/
structure CarriesOutputs (f : Frame) (s : State) : Prop where
  ledCtrl : rd8 f 5 = s.ledCtrl
  ledVal : rd8 f 6 = s.ledVal &&& s.ledCtrl
  dout : rd8 f 7 = s.dout.setWidth 8
  pwmDiv0 : rd16le f 8 = s.pwmDiv.get 0
  dutyCode0 : rd16le f 10 = s.dutyCode.get 0
  dutyCode1 : rd16le f 12 = s.dutyCode.get 1
  dutyCode2 : rd16le f 14 = s.dutyCode.get 2
  pwmDiv1 : rd16le f 16 = s.pwmDiv.get 1
  dutyCode3 : rd16le f 18 = s.dutyCode.get 3
  dacCode0 : rd16le f 20 = s.dacCode.get 0
  dacCode1 : rd16le f 22 = s.dacCode.get 1

/-- Each register is read back: its own write is the last one to touch its bytes. -/
theorem carriesOutputs_encodeFrame (s : State) : CarriesOutputs (encodeFrame s) s := by
  constructor <;>
    simp [encodeFrame, rd8_withTrailer, rd16le_withTrailer, encodeBody, rd8_wr8_other,
      rd8_wr16le_other, rd16le_wr16le_other]

/-- Nothing after the service field writes its four bytes (R191). -/
theorem rd16le_encodeFrame_service (s : State) :
    rd16le (encodeFrame s) 0 = rd16le (serviceField s Frame.zero) 0 ∧
    rd16le (encodeFrame s) 2 = rd16le (serviceField s Frame.zero) 2 := by
  constructor <;>
    simp [encodeFrame, rd16le_withTrailer, encodeBody, rd16le_wr8_other, rd16le_wr16le_other]

/-- With a task in flight the service field is its slot's value and address (R191). -/
theorem encodeFrame_service_of_inflight {s : State} {t : Task} (h : s.inflightTask = some t) :
    rd16le (encodeFrame s) 0 = s.slotValue t.slot ∧ rd16le (encodeFrame s) 2 = slotAddr t.slot := by
  obtain ⟨hvalue, haddr⟩ := rd16le_encodeFrame_service s
  rw [hvalue, haddr]
  simp [serviceField, h, rd16le_wr16le_other]

/-- With none in flight the service field is zeros (R191). -/
theorem encodeFrame_service_of_clear {s : State} (h : s.inflightV = false) :
    rd16le (encodeFrame s) 0 = 0 ∧ rd16le (encodeFrame s) 2 = 0 := by
  obtain ⟨hvalue, haddr⟩ := rd16le_encodeFrame_service s
  have hnone : serviceField s Frame.zero = Frame.zero := by
    simp only [serviceField, inflightTask_eq_none.2 h]
  rw [hvalue, haddr, hnone]
  exact ⟨rfl, rfl⟩

/-! ### The frame of a BUILD_STEP -/

/-- A BUILD_STEP that ends in a state was enabled and built a frame (R253). -/
theorem eq_buildFrame_of_exec {s t : State} (h : exec .buildStep s = .next t) :
    s.fsm = .build ∧ t = buildFrame s := by
  simp only [exec, execBuildStep] at h
  split at h
  · exact ⟨‹_›, (Host.Outcome.next.inj h).symm⟩
  · exact nomatch h

/-- The frame a BUILD_STEP sends is the encoding of the state it leaves: what it writes after encoding, the
codec does not read. -/
theorem buildFrame_tx (s : State) : (buildFrame s).tx = encodeFrame (buildFrame s) := by
  rw [buildFrame_eq]
  rfl

/-- The frame build writes no output register, so its frame carries the ones from before it (R94). -/
theorem carriesOutputs_buildFrame (s : State) : CarriesOutputs (buildFrame s).tx s := by
  have hafter := carriesOutputs_encodeFrame (buildFrame s)
  rw [← buildFrame_tx] at hafter
  obtain ⟨vals, q, v, task, tx, hb, -⟩ := buildFrame_frame s
  rw [hb] at hafter ⊢
  exact { hafter with }

/-- Settles O35: the frame is the encoding of the state after the step, whose output registers are those
from before it. -/
theorem buildStepSamplesOutputs : Obligations.BuildStepSamplesOutputs := by
  intro s t h
  obtain ⟨-, rfl⟩ := eq_buildFrame_of_exec h
  have hout := carriesOutputs_buildFrame s
  rw [buildFrame_tx] at hout ⊢
  exact ⟨hout.ledCtrl, hout.ledVal, hout.dout, hout.pwmDiv0, hout.pwmDiv1, hout.dutyCode0,
    hout.dutyCode1, hout.dutyCode2, hout.dutyCode3, hout.dacCode0, hout.dacCode1,
    fun _ hx => encodeFrame_service_of_inflight hx, encodeFrame_service_of_clear⟩

end Sys2Proof.Machine
end

section
/-! Decoding and encoding of the input words, both ways (30_encoding.md R101, R102, R105-R107), and the
answer to an unassigned opcode (R106). -/
namespace Sys2Proof

/-! ### Fields of a concatenation -/

/-- The last field of a concatenation. -/
theorem extract_last {a b : Nat} (x : BitVec a) (y : BitVec b) : (x ++ y).extractLsb' 0 b = y := by
  rw [extract_append_low x y (by omega), extract_all]

/-- The field before the last. -/
theorem extract_middle {a b c : Nat} (x : BitVec a) (y : BitVec b) (z : BitVec c) :
    (x ++ y ++ z).extractLsb' c b = y := by
  rw [extract_append_high (x ++ y) z (Nat.le_refl c), Nat.sub_self, extract_last]

/-! ### The fields of a written word, by format (R102) -/

theorem rsv20_append (op : Byte) (rsv : BitVec 20) (k : BitVec 4) : rsv20 (op ++ rsv ++ k) = rsv :=
  extract_middle op rsv k

theorem index4_append (op : Byte) (rsv : BitVec 20) (k : BitVec 4) : index4 (op ++ rsv ++ k) = k :=
  extract_last (op ++ rsv) k

theorem payloadNum_append (num den : Word) : payloadNum (num ++ den) = num := by
  rw [payloadNum, extract_append_high (b := 32) _ _ (by decide)]
  exact extract_all num

theorem payloadDen_append (num den : Word) : payloadDen (num ++ den) = den := extract_last num den

/-- The fields of the format R, in the command `make` builds from them. -/
theorem rational_fields (make : BitVec 20 → BitVec 4 → Word → Word → Instr) (op : Byte) (rsv : BitVec 20)
    (k : BitVec 4) (num den : Word) :
    make (rsv20 (op ++ rsv ++ k)) (index4 (op ++ rsv ++ k)) (payloadNum (num ++ den))
      (payloadDen (num ++ den)) = make rsv k num den := by
  rw [rsv20_append, index4_append, payloadNum_append, payloadDen_append]

/-! ### Decoding what was encoded -/

namespace HostFields

/-- The command's fields read from its own word and payload are the ones written there. -/
def Statement (o : HostOp) (i : Instr) : Prop := hostFields o (encodeWord i) (encodePayload i) = i

theorem openCmd (rsv : BitVec 24) : Statement .openOp (.openCmd rsv) :=
  congrArg Instr.openCmd (extract_last 0x01#8 rsv)

theorem closeCmd (rsv : BitVec 24) : Statement .closeOp (.closeCmd rsv) :=
  congrArg Instr.closeCmd (extract_last 0x02#8 rsv)

theorem setLed (rsv ctrl val : Byte) : Statement .setLed (.setLed rsv ctrl val) := by
  have hrsv : (0x10#8 ++ rsv ++ ctrl ++ val : Word).extractLsb' 16 8 = rsv :=
    (extract_append_high (b := 8) _ val (by decide)).trans (extract_middle 0x10#8 rsv ctrl)
  have hctrl : (0x10#8 ++ rsv ++ ctrl ++ val : Word).extractLsb' 8 8 = ctrl := extract_middle _ ctrl val
  have hval : (0x10#8 ++ rsv ++ ctrl ++ val : Word).extractLsb' 0 8 = val := extract_last _ val
  rw [Statement, hostFields, encodeWord, hrsv, hctrl, hval]

theorem setDout (rsv : BitVec 20) (mask : BitVec 4) : Statement .setDout (.setDout rsv mask) := by
  rw [Statement, hostFields, encodeWord, rsv20_append, index4_append]

theorem setPwmDuty (rsv : BitVec 20) (k : BitVec 4) (num den : Word) :
    Statement .setPwmDuty (.setPwmDuty rsv k num den) :=
  rational_fields .setPwmDuty 0x12 rsv k num den

theorem setPwmFreq (rsv : BitVec 20) (g : BitVec 4) (num den : Word) :
    Statement .setPwmFreq (.setPwmFreq rsv g num den) :=
  rational_fields .setPwmFreq 0x13 rsv g num den

theorem setAout (rsv : BitVec 20) (c : BitVec 4) (num den : Word) :
    Statement .setAout (.setAout rsv c num den) :=
  rational_fields .setAout 0x14 rsv c num den

theorem setRs485Baud (baud : BitVec 24) : Statement .setRs485Baud (.setRs485Baud baud) :=
  congrArg Instr.setRs485Baud (extract_last 0x20#8 baud)

theorem setRs485Mode (rsv : BitVec 20) (stop parity : BitVec 2) :
    Statement .setRs485Mode (.setRs485Mode rsv stop parity) := by
  have hrsv : rsv20 (0x21#8 ++ rsv ++ stop ++ parity) = rsv :=
    (extract_append_high (b := 2) _ parity (by decide)).trans (extract_middle 0x21#8 rsv stop)
  have hstop : (0x21#8 ++ rsv ++ stop ++ parity : Word).extractLsb' 2 2 = stop :=
    extract_middle _ stop parity
  have hparity : (0x21#8 ++ rsv ++ stop ++ parity : Word).extractLsb' 0 2 = parity :=
    extract_last _ parity
  rw [Statement, hostFields, encodeWord, hrsv, hstop, hparity]

theorem setBoardCfg (rsv : BitVec 21) (ai2 ai1 term : BitVec 1) :
    Statement .setBoardCfg (.setBoardCfg rsv ai2 ai1 term) := by
  have hrsv : (0x22#8 ++ rsv ++ ai2 ++ ai1 ++ term : Word).extractLsb' 3 21 = rsv := by
    rw [extract_append_high (b := 1) _ term (by decide), extract_append_high (b := 1) _ ai1 (by decide)]
    exact extract_middle 0x22#8 rsv ai2
  have hai2 : (0x22#8 ++ rsv ++ ai2 ++ ai1 ++ term : Word).extractLsb' 2 1 = ai2 :=
    (extract_append_high (b := 1) _ term (by decide)).trans (extract_middle _ ai2 ai1)
  have hai1 : (0x22#8 ++ rsv ++ ai2 ++ ai1 ++ term : Word).extractLsb' 1 1 = ai1 :=
    extract_middle _ ai1 term
  have hterm : (0x22#8 ++ rsv ++ ai2 ++ ai1 ++ term : Word).extractLsb' 0 1 = term := extract_last _ term
  rw [Statement, hostFields, encodeWord, hrsv, hai2, hai1, hterm]

theorem svcRead (slot : Byte) (tag : Half) : Statement .svcRead (.svcRead slot tag) :=
  congrArg₂ Instr.svcRead (extract_middle 0x30#8 slot tag) (extract_last _ tag)

theorem svcWrite (slot : Byte) (tag : Half) (prsv : BitVec 48) (value : Half) :
    Statement .svcWrite (.svcWrite slot tag prsv value) := by
  have hslot : (0x31#8 ++ slot ++ tag : Word).extractLsb' 16 8 = slot := extract_middle 0x31#8 slot tag
  have htag : (0x31#8 ++ slot ++ tag : Word).extractLsb' 0 16 = tag := extract_last _ tag
  have hprsv : (prsv ++ value : Payload).extractLsb' 16 48 = prsv :=
    (extract_append_high (b := 16) prsv value (by decide)).trans (extract_all prsv)
  have hvalue : (prsv ++ value : Payload).extractLsb' 0 16 = value := extract_last prsv value
  rw [Statement, hostFields, encodeWord, encodePayload, hslot, htag, hprsv, hvalue]

end HostFields

/-- A host command comes back from its message: the opcode selects its format, and the fields are read from
where they were written. -/
theorem decode_encode_host {i : Instr} (o : HostOp)
    (hmsg : encode i = .host (encodeWord i) (encodePayload i))
    (hop : opcodeOf (encodeWord i) = o.code) (hfields : HostFields.Statement o i) :
    decode (encode i) = .ok i := by
  rw [hmsg, decode, decodeHost_of_code _ hop, hfields]

/-! ### The environment's words (R107) -/

theorem decodeTick_of_opcode {w : Word} (h : opcodeOf w = 0x80) : decodeTick w = .ok .tick := if_pos h

theorem decodeTransport_done {w : Word} (h : opcodeOf w = 0x81) (rx : Frame) :
    decodeTransport w rx = .ok (.xferDone rx) := if_pos h

theorem decodeTransport_fail {w : Word} (h : opcodeOf w = 0x82) (rx : Frame) :
    decodeTransport w rx = .ok (.xferFail (w.extractLsb' 0 8)) := by
  rw [decodeTransport, h, if_neg (by decide), if_pos rfl]

/-- The reason byte of XFER_FAIL is read from where it was written. -/
theorem decode_encode_xferFail (reason : Byte) :
    decode (encode (.xferFail reason)) = .ok (.xferFail reason) :=
  (decodeTransport_fail (Laws.EncodesOpcode.xferFail reason) Frame.zero).trans
    (congrArg (fun r => Except.ok (Instr.xferFail r)) (extract_last (0x82#8 ++ 0#16) reason))

/-- Settles O1: a host command by its opcode and the fields of its format, an environment input by its
opcode on its own port, BUILD_STEP by its own message. -/
theorem decodeOfEncode : Obligations.DecodeOfEncode := by
  intro i
  cases i with
  | openCmd rsv =>
    exact decode_encode_host .openOp rfl (Laws.EncodesOpcode.openCmd rsv) (HostFields.openCmd rsv)
  | closeCmd rsv =>
    exact decode_encode_host .closeOp rfl (Laws.EncodesOpcode.closeCmd rsv) (HostFields.closeCmd rsv)
  | setLed rsv ctrl val =>
    exact decode_encode_host .setLed rfl (Laws.EncodesOpcode.setLed rsv ctrl val)
      (HostFields.setLed rsv ctrl val)
  | setDout rsv mask =>
    exact decode_encode_host .setDout rfl (Laws.EncodesOpcode.setDout rsv mask) (HostFields.setDout rsv mask)
  | setPwmDuty rsv k num den =>
    exact decode_encode_host .setPwmDuty rfl (Laws.EncodesOpcode.setPwmDuty rsv k num den)
      (HostFields.setPwmDuty rsv k num den)
  | setPwmFreq rsv g num den =>
    exact decode_encode_host .setPwmFreq rfl (Laws.EncodesOpcode.setPwmFreq rsv g num den)
      (HostFields.setPwmFreq rsv g num den)
  | setAout rsv c num den =>
    exact decode_encode_host .setAout rfl (Laws.EncodesOpcode.setAout rsv c num den)
      (HostFields.setAout rsv c num den)
  | setRs485Baud baud =>
    exact decode_encode_host .setRs485Baud rfl (Laws.EncodesOpcode.setRs485Baud baud)
      (HostFields.setRs485Baud baud)
  | setRs485Mode rsv stop parity =>
    exact decode_encode_host .setRs485Mode rfl (Laws.EncodesOpcode.setRs485Mode rsv stop parity)
      (HostFields.setRs485Mode rsv stop parity)
  | setBoardCfg rsv ai2 ai1 term =>
    exact decode_encode_host .setBoardCfg rfl (Laws.EncodesOpcode.setBoardCfg rsv ai2 ai1 term)
      (HostFields.setBoardCfg rsv ai2 ai1 term)
  | svcRead slot tag =>
    exact decode_encode_host .svcRead rfl (Laws.EncodesOpcode.svcRead slot tag) (HostFields.svcRead slot tag)
  | svcWrite slot tag prsv value =>
    exact decode_encode_host .svcWrite rfl (Laws.EncodesOpcode.svcWrite slot tag prsv value)
      (HostFields.svcWrite slot tag prsv value)
  | tick => exact decodeTick_of_opcode Laws.EncodesOpcode.tick
  | xferDone rx => exact decodeTransport_done (Laws.EncodesOpcode.xferDone rx) rx
  | xferFail reason => exact decode_encode_xferFail reason
  | buildStep => rfl

/-! ### Encoding what was decoded -/

/-- A slice and the `b` bits below it, from bit `a` on. -/
theorem join_slices (w : Word) (a b : Nat) {l : Nat} :
    w.extractLsb' (a + b) l ++ w.extractLsb' a b = w.extractLsb' a (l + b) :=
  extract_join w rfl

section JoinWord
variable {w : Word} {op : Byte}

/-- The formats N and B. -/
theorem join_operands (h : opcodeOf w = op) :
    op ++ w.extractLsb' 0 24 = w := by
  subst h
  rw [opcodeOf, join_slices w 0 24]
  exact extract_all w

/-- The format L. -/
theorem join_led (h : opcodeOf w = op) :
    op ++ w.extractLsb' 16 8 ++ w.extractLsb' 8 8 ++ w.extractLsb' 0 8 = w := by
  subst h
  rw [opcodeOf, join_slices w 16 8, join_slices w 8 8, join_slices w 0 8]
  exact extract_all w

/-- The formats D and R. -/
theorem join_index (h : opcodeOf w = op) :
    op ++ rsv20 w ++ index4 w = w := by
  subst h
  rw [opcodeOf, rsv20, index4, join_slices w 4 20, join_slices w 0 4]
  exact extract_all w

/-- The format M. -/
theorem join_mode (h : opcodeOf w = op) :
    op ++ rsv20 w ++ w.extractLsb' 2 2 ++ w.extractLsb' 0 2 = w := by
  subst h
  rw [opcodeOf, rsv20, join_slices w 4 20, join_slices w 2 2, join_slices w 0 2]
  exact extract_all w

/-- The format C. -/
theorem join_board (h : opcodeOf w = op) :
    op ++ w.extractLsb' 3 21 ++ w.extractLsb' 2 1 ++ w.extractLsb' 1 1 ++ w.extractLsb' 0 1 = w := by
  subst h
  rw [opcodeOf, join_slices w 3 21, join_slices w 2 1, join_slices w 1 1, join_slices w 0 1]
  exact extract_all w

/-- The formats S and SW. -/
theorem join_service (h : opcodeOf w = op) :
    op ++ w.extractLsb' 16 8 ++ w.extractLsb' 0 16 = w := by
  subst h
  rw [opcodeOf, join_slices w 16 8, join_slices w 0 16]
  exact extract_all w

end JoinWord

/-- The fields read from a word with the command's opcode hold every bit of the word. -/
theorem encodeWord_hostFields {o : HostOp} {w : Word} (h : opcodeOf w = o.code) (p : Payload) :
    encodeWord (hostFields o w p) = w := by
  cases o with
  | openOp => exact join_operands h
  | closeOp => exact join_operands h
  | setLed => exact join_led h
  | setDout => exact join_index h
  | setPwmDuty => exact join_index h
  | setPwmFreq => exact join_index h
  | setAout => exact join_index h
  | setRs485Baud => exact join_operands h
  | setRs485Mode => exact join_mode h
  | setBoardCfg => exact join_board h
  | svcRead => exact join_service h
  | svcWrite => exact join_service h

theorem join_rational (p : Payload) : payloadNum p ++ payloadDen p = p :=
  (extract_join p rfl).trans (extract_all p)

/-- In the formats with a payload the fields hold every bit of it. -/
theorem encodePayload_hostFields {o : HostOp} {w : Word} {p : Payload}
    (h : hasPayload (hostFields o w p) = true) : encodePayload (hostFields o w p) = p := by
  cases o with
  | setPwmDuty => exact join_rational p
  | setPwmFreq => exact join_rational p
  | setAout => exact join_rational p
  | svcWrite => exact (extract_join p rfl).trans (extract_all p)
  | _ => exact nomatch h

theorem isHostCommand_hostFields (o : HostOp) (w : Word) (p : Payload) :
    Machine.isHostCommand (hostFields o w p) = true := by
  cases o <;> rfl

/-- Everything the host port decodes: the command its opcode names, with that command's fields. -/
theorem decodeHost_eq_ok {w : Word} {p : Payload} {i : Instr} (h : decodeHost w p = .ok i) :
    ∃ o : HostOp, opcodeOf w = o.code ∧ i = hostFields o w p := by
  rw [decodeHost] at h
  split at h
  · exact ⟨_, (code_of_hostOp ‹_›).symm, (Except.ok.inj h).symm⟩
  · exact nomatch h

/-- Settles O2: the instruction holds the fields of its command's format, and they are all of the word and,
where there is one, of the payload. -/
theorem hostWordLosesNoBit : Obligations.HostWordLosesNoBit := by
  intro w p i h
  obtain ⟨o, hop, rfl⟩ := decodeHost_eq_ok h
  exact ⟨encodeWord_hostFields hop p, encodePayload_hostFields, isHostCommand_hostFields o w p⟩

/-! ### Unassigned opcodes (R106) -/

theorem unassignedOpcode_code (o : HostOp) : Machine.unassignedOpcode o.code = false := by
  cases o <;> rfl

/-- A host word with an opcode R106 lists is no command. -/
theorem decodeHost_of_unassigned {w : Word} (p : Payload)
    (h : Machine.unassignedOpcode (opcodeOf w) = true) :
    decodeHost w p = .error (.unknownOpcode (opcodeOf w)) := by
  have hnone : hostOp (opcodeOf w) = none := by
    refine Option.eq_none_iff_forall_ne_some.2 fun o ho => ?_
    rw [← code_of_hostOp ho, unassignedOpcode_code] at h
    exact nomatch h
  rw [decodeHost, hnone]

/-- Settles O4: the step takes the word, which decodes to nothing, and refuses it by its opcode. -/
theorem unassignedOpcodeAnswered : Obligations.UnassignedOpcodeAnswered := by
  intro s w p rest hinbox hop
  have hfetch := Machine.fetch_cons hinbox
  rw [decode, decodeHost_of_unassigned p hop] at hfetch
  exact Machine.step_of_fetch_error hfetch

/-- The environment's opcodes are among the unassigned ones of the host port (R107). -/
theorem unassignedOpcode_of_environment {op : Byte} (hlow : 0x80 ≤ op.toNat) (hhigh : op.toNat ≤ 0x82) :
    Machine.unassignedOpcode op = true := by
  have h : 0x32 ≤ op.toNat ∧ op.toNat ≤ 0xFF := by omega
  simp [Machine.unassignedOpcode, h]

/-- Settles O3. -/
theorem environmentWords : Obligations.EnvironmentWords := by
  intro w p rx
  exact ⟨decodeTick_of_opcode, fun h => decodeTransport_done h rx, fun h => decodeTransport_fail h rx,
    fun hlow hhigh => decodeHost_of_unassigned p (unassignedOpcode_of_environment hlow hhigh)⟩

/-! ### The example encodings (R117) -/

/-- Settles O5: the words are decoded, and the lines assembled, by evaluation. -/
theorem exampleEncodings : Obligations.ExampleEncodings := by
  refine ⟨rfl, rfl, rfl, rfl, rfl, rfl, rfl, rfl, rfl, rfl, rfl, rfl, rfl, rfl, rfl, rfl, ?_, ?_⟩
  · decide +kernel
  · decide +kernel

end Sys2Proof
end

section
/-! The output events read back from their words and bytes (30_encoding.md R108, R109, R116, R120). -/
namespace Sys2Proof.Machine

/-! ### Bytes -/

theorem toNat_append_add {a b : Nat} (x : BitVec a) (y : BitVec b) :
    (x ++ y).toNat = x.toNat * 2 ^ b + y.toNat := by
  rw [BitVec.toNat_append, ← Nat.shiftLeft_add_eq_or_of_lt y.isLt, Nat.shiftLeft_eq]

/-- A halfword is its two bytes. -/
theorem join_bytes16 (v : Half) : v.extractLsb' 8 8 ++ v.extractLsb' 0 8 = v :=
  (extract_join v rfl).trans (extract_all v)

/-- A word is its four bytes. -/
theorem join_bytes32 (v : Word) :
    v.extractLsb' 24 8 ++ v.extractLsb' 16 8 ++ v.extractLsb' 8 8 ++ v.extractLsb' 0 8 = v :=
  join_led rfl

theorem bytes16_toNat (v : Half) :
    (v.extractLsb' 0 8).toNat + 2 ^ 8 * (v.extractLsb' 8 8).toNat = v.toNat := by
  have h := congrArg BitVec.toNat (join_bytes16 v)
  rw [toNat_append_add] at h
  omega

theorem bytes32_toNat (v : Word) :
    (v.extractLsb' 0 8).toNat + 2 ^ 8 * (v.extractLsb' 8 8).toNat + 2 ^ 16 * (v.extractLsb' 16 8).toNat +
      2 ^ 24 * (v.extractLsb' 24 8).toNat = v.toNat := by
  have h := congrArg BitVec.toNat (join_bytes32 v)
  rw [toNat_append_add, toNat_append_add, toNat_append_add] at h
  omega

/-! ### The snapshot record (R116) -/

/-- The byte of the two mode bits. -/
theorem modeByte_toNat (ai2 ai1 : BitVec 1) :
    ((ai2 ++ ai1).setWidth 8 : Byte).toNat = ai1.toNat + 2 * ai2.toNat := by
  rw [BitVec.toNat_setWidth_of_le (by decide), toNat_append_add]
  omega

/-- Settles O7: the bytes of the record, one by one, and the number a little-endian group of them is. -/
theorem snapshotRecordBytes : Obligations.SnapshotRecordBytes := by
  intro n byteAt h
  simp only [h]
  exact ⟨rfl, BitVec.toNat_setWidth_of_le (b := n.din) (by decide), rfl, bytes32_toNat (n.cnt.get 0),
    bytes32_toNat (n.cnt.get 1), bytes16_toNat (n.aiRaw.get 0), bytes16_toNat (n.aiRaw.get 1),
    modeByte_toNat (n.aiMode.get 1) (n.aiMode.get 0), rfl⟩

/-! ### Event words as numbers (R108) -/

/-- The fields of a task's event word (R120). -/
theorem taskFields_toNat (t : Task) :
    t.fields.toNat = t.origin.code.toNat * 2 ^ 22 + t.slot.val * 2 ^ 16 + t.tag.toNat := by
  have hslot : t.slot.val < 19 := t.slot.isLt
  rw [Task.fields, toNat_append_add, toNat_append_add, toNat_append_add]
  simp only [BitVec.toNat_ofNat]
  omega

/-- The word of SVC_RESOLVE or SVC_REJECT. -/
theorem taskWord_toNat (code : Byte) (t : Task) :
    (code ++ t.fields : Word).toNat = code.toNat * 2 ^ 24 +
      t.origin.code.toNat * 2 ^ 22 + t.slot.val * 2 ^ 16 + t.tag.toNat := by
  rw [toNat_append_add, taskFields_toNat, ← Nat.add_assoc, ← Nat.add_assoc]

theorem cmdErrorWord_toNat (op : Byte) (cause : Cause) :
    (Event.cmdError op cause).word.toNat = 0xC9000000 + op.toNat * 2 ^ 8 + cause.code.toNat := by
  have hhead : (0xC9#8 ++ 0#8).toNat * 2 ^ 8 * 2 ^ 8 = 0xC9000000 := rfl
  rw [Event.word, toNat_append_add, toNat_append_add, Nat.add_mul, hhead]

/-- Settles O6: a word with operand fields is the sum of its fields at their places; the others and the
bytes after a word are constants or the model's own lists. -/
theorem eventWords : Obligations.EventWords := by
  intro n f b op c t v
  refine ⟨rfl, rfl, toNat_append_add (0xC2#8 ++ 0#16) b, toNat_append_add (0xC3#8 ++ 0#22 ++ 0#1) c,
    toNat_append_add (0xC3#8 ++ 0#22 ++ 1#1) c, taskWord_toNat 0xC4 t, taskWord_toNat 0xC5 t, rfl, rfl,
    rfl, rfl, cmdErrorWord_toNat op, rfl, rfl, rfl, rfl, rfl, rfl, rfl, ?_, fun _ => rfl⟩
  simp [Event.tail]

/-! ### Reading the fields of an event (R109, R120) -/

/-- The origin of a code (R120). -/
def Origin.ofCode (c : BitVec 2) : Origin :=
  if c = Origin.host.code then .host else if c = Origin.opened.code then .opened else .cfg

theorem Origin.ofCode_code (o : Origin) : Origin.ofCode o.code = o := by
  cases o <;> rfl

/-- The cause of a code (R109). -/
def Cause.ofCode (c : Byte) : Cause :=
  ([.unknownOpcode, .reservedNonzero, .indexRange, .domain, .badState, .queueFull].find?
    fun cause => cause.code == c).getD .closed

theorem Cause.ofCode_code (cause : Cause) : Cause.ofCode cause.code = cause := by
  cases cause <;> rfl

/-- The side of a bit (R108). -/
def Side.ofCode (c : BitVec 1) : Side := if c = Side.low.code then .low else .high

theorem Side.ofCode_code (side : Side) : Side.ofCode side.code = side := by
  cases side <;> rfl

/-- The task of an event word (R120). -/
def Task.ofWord (w : Word) : Task where
  slot := Fin.ofNat 19 (w.extractLsb' 16 5).toNat
  origin := .ofCode (w.extractLsb' 22 2)
  tag := w.extractLsb' 0 16

theorem Task.ofWord_append (code : Byte) (t : Task) : Task.ofWord (code ++ t.fields) = t := by
  have hfields {start len : Nat} (h : start + len ≤ 24) :
      (code ++ t.fields : Word).extractLsb' start len = t.fields.extractLsb' start len :=
    extract_append_low code t.fields h
  have horigin : t.fields.extractLsb' 22 2 = t.origin.code := by
    rw [Task.fields, extract_append_high (b := 16) _ t.tag (by decide),
      extract_append_high (b := 5) _ _ (by decide), extract_append_high (b := 1) _ _ (by decide)]
    exact extract_all t.origin.code
  have hslot : t.fields.extractLsb' 16 5 = BitVec.ofNat 5 t.slot.val := extract_middle _ _ t.tag
  have htag : t.fields.extractLsb' 0 16 = t.tag := extract_last _ t.tag
  have hfits : t.slot.val % 2 ^ 5 = t.slot.val := Nat.mod_eq_of_lt (by omega)
  rw [Task.ofWord, hfields (by decide), hfields (by decide), hfields (by decide), horigin, hslot, htag,
    Origin.ofCode_code, BitVec.toNat_ofNat, hfits, Fin.ofNat_val_eq_self]

/-- The halfword whose bytes stand at `i` and `i + 1`, low byte first. -/
def halfAt (bs : List Byte) (i : Nat) : Half := bs.getD (i + 1) 0 ++ bs.getD i 0

theorem halfAt_bytes16 (v : Half) : halfAt (bytes16 v) 0 = v := join_bytes16 v

/-- The word whose bytes stand from `i` on, low byte first. -/
def wordAt (bs : List Byte) (i : Nat) : Word :=
  bs.getD (i + 3) 0 ++ bs.getD (i + 2) 0 ++ bs.getD (i + 1) 0 ++ bs.getD i 0

/-- The snapshot of a record (R116). -/
def Snapshot.ofRecord (bs : List Byte) : Snapshot where
  din := (bs.getD 0 0).extractLsb' 0 4
  cnt := #v[wordAt bs 2, wordAt bs 6]
  aiRaw := #v[halfAt bs 10, halfAt bs 12]
  aiMode := #v[(bs.getD 14 0).extractLsb' 0 1, (bs.getD 14 0).extractLsb' 1 1]
  status := bs.getD 1 0

/-- A vector of two elements is the pair of them. -/
theorem pair_eq {α : Type} {v : Vector α 2} {a b : α} (h0 : a = v.get 0) (h1 : b = v.get 1) :
    #v[a, b] = v := by
  subst h0 h1
  ext i hi
  interval_cases i <;> rfl

/-- The bits of the byte of the modes, input by input. -/
theorem modeByte_bits (ai2 ai1 : BitVec 1) :
    ((ai2 ++ ai1).setWidth 8 : Byte).extractLsb' 0 1 = ai1 ∧
    ((ai2 ++ ai1).setWidth 8 : Byte).extractLsb' 1 1 = ai2 := by
  rw [BitVec.extractLsb'_setWidth_of_le (by decide), BitVec.extractLsb'_setWidth_of_le (by decide)]
  exact ⟨extract_last ai2 ai1,
    (extract_append_high (b := 1) ai2 ai1 (by decide)).trans (extract_all ai2)⟩

theorem Snapshot.ofRecord_record (n : Snapshot) : Snapshot.ofRecord n.record = n := by
  have hdin : (Snapshot.ofRecord n.record).din = n.din :=
    (BitVec.extractLsb'_setWidth_of_le (by decide)).trans (extract_all n.din)
  have hcnt : (Snapshot.ofRecord n.record).cnt = n.cnt := pair_eq (join_bytes32 _) (join_bytes32 _)
  have hraw : (Snapshot.ofRecord n.record).aiRaw = n.aiRaw := pair_eq (join_bytes16 _) (join_bytes16 _)
  have hmodes : (Snapshot.ofRecord n.record).aiMode = n.aiMode :=
    have ⟨h0, h1⟩ := modeByte_bits (n.aiMode.get 1) (n.aiMode.get 0)
    pair_eq h0 h1
  exact (Snapshot.mk.injEq ..).mpr ⟨hdin, hcnt, hraw, hmodes, rfl⟩

/-- The frame of 26 bytes. -/
def frameOfBytes (bs : List Byte) : Frame := Vector.ofFn fun i => bs.getD i.val 0

theorem frameOfBytes_toList (f : Frame) : frameOfBytes f.toList = f := by
  ext i hi
  simp [frameOfBytes]

/-! ### Reading an event (R108) -/

/-- The code in the high byte of an event's word. -/
def Event.code : Event → Byte
  | .dataReady _ => 0xC0
  | .frameError _ _ => 0xC1
  | .transportError _ => 0xC2
  | .rangeWarning _ _ => 0xC3
  | .svcResolve _ _ => 0xC4
  | .svcReject _ _ => 0xC5
  | .openDone _ => 0xC6
  | .xferReq _ => 0xC7
  | .xferRelease => 0xC8
  | .cmdError _ _ => 0xC9

theorem Event.opcodeOf_word (e : Event) : opcodeOf e.word = e.code := by
  cases e with
  | dataReady n => exact (rfl : opcodeOf 0xC0000000 = 0xC0)
  | frameError r rx => cases r; exact (rfl : opcodeOf 0xC1000001 = 0xC1)
  | transportError r =>
    rw [Event.word, opcodeOf, extract_append_high (b := 8) _ r (by decide)]
    rfl
  | rangeWarning c side =>
    rw [Event.word, opcodeOf, extract_append_high (b := 1) _ c (by decide)]
    cases side <;> rfl
  | svcResolve t v => exact Laws.opcodeOf_append 0xC4 t.fields
  | svcReject t v => exact Laws.opcodeOf_append 0xC5 t.fields
  | openDone rejected => cases rejected <;> rfl
  | xferReq tx => exact (rfl : opcodeOf 0xC7000000 = 0xC7)
  | xferRelease => rfl
  | cmdError op cause =>
    rw [Event.word, opcodeOf, extract_append_high (b := 8) _ cause.code (by decide),
      extract_append_high (b := 8) _ op (by decide)]
    rfl

/-- The event a word and the bytes after it stand for. -/
def Event.ofBits (w : Word) (bs : List Byte) : Event :=
  match (opcodeOf w).toNat with
  | 0xC0 => .dataReady (.ofRecord bs)
  | 0xC1 => .frameError .crcMismatch (frameOfBytes bs)
  | 0xC2 => .transportError (w.extractLsb' 0 8)
  | 0xC3 => .rangeWarning (w.extractLsb' 0 1) (.ofCode (w.extractLsb' 1 1))
  | 0xC4 => .svcResolve (.ofWord w) (halfAt bs 0)
  | 0xC5 => .svcReject (.ofWord w) (halfAt bs 0)
  | 0xC6 => .openDone (w.getLsbD 0)
  | 0xC7 => .xferReq (frameOfBytes bs)
  | 0xC8 => .xferRelease
  | _ => .cmdError (w.extractLsb' 8 8) (.ofCode (w.extractLsb' 0 8))

theorem Event.ofBits_word_tail (e : Event) : Event.ofBits e.word e.tail = e := by
  rw [Event.ofBits, e.opcodeOf_word]
  cases e with
  | dataReady n => exact congrArg Event.dataReady n.ofRecord_record
  | frameError r rx => cases r; exact congrArg (Event.frameError .crcMismatch) (frameOfBytes_toList rx)
  | transportError r => exact congrArg Event.transportError (extract_last (0xC2#8 ++ 0#16) r)
  | rangeWarning c side =>
    have hchannel : (Event.rangeWarning c side).word.extractLsb' 0 1 = c := extract_last _ c
    have hside : (Event.rangeWarning c side).word.extractLsb' 1 1 = side.code := extract_middle _ side.code c
    exact congrArg₂ Event.rangeWarning hchannel ((congrArg Side.ofCode hside).trans side.ofCode_code)
  | svcResolve t v => exact congrArg₂ Event.svcResolve (Task.ofWord_append 0xC4 t) (halfAt_bytes16 v)
  | svcReject t v => exact congrArg₂ Event.svcReject (Task.ofWord_append 0xC5 t) (halfAt_bytes16 v)
  | openDone rejected => cases rejected <;> rfl
  | xferReq tx => exact congrArg Event.xferReq (frameOfBytes_toList tx)
  | xferRelease => rfl
  | cmdError op cause =>
    have hop : (Event.cmdError op cause).word.extractLsb' 8 8 = op := extract_middle _ op cause.code
    have hcause : (Event.cmdError op cause).word.extractLsb' 0 8 = cause.code := extract_last _ cause.code
    exact congrArg₂ Event.cmdError hop ((congrArg Cause.ofCode hcause).trans cause.ofCode_code)

/-- Settles O8: both events are what their common word and bytes read as. -/
theorem eventBitsDetermineEvent : Obligations.EventBitsDetermineEvent := by
  intro e e' hword htail
  rw [← e.ofBits_word_tail, hword, htail, e'.ofBits_word_tail]

end Sys2Proof.Machine
end

section
/-! The rational operand as a value (30_encoding.md R104). -/
namespace Sys2Proof.Machine

/-- Equal quotients are the same operand. -/
theorem ratOperand_eq_of_cross {num den num' den' : Word} (hden : den ≠ 0) (hden' : den' ≠ 0)
    (h : num.toInt * den'.toNat = num'.toInt * den.toNat) :
    ratOperand num den = ratOperand num' den' := by
  have hpos : (den.toNat : Rat) ≠ 0 := by exact_mod_cast (den_pos hden).ne'
  have hpos' : (den'.toNat : Rat) ≠ 0 := by exact_mod_cast (den_pos hden').ne'
  rw [ratOperand_eq, ratOperand_eq, div_eq_div_iff hpos hpos']
  exact_mod_cast h

/-- Nonzero denominators do not differ in their check. -/
theorem denCheck_eq_of_ne {den den' : Word} (hden : den ≠ 0) (hden' : den' ≠ 0) :
    denCheck den = denCheck den' :=
  Prod.ext ((denCheck_passes.2 hden).trans (denCheck_passes.2 hden').symm) rfl

/-- Settles O18: beyond its check a command reads the denominator in the quotient only. -/
theorem equalQuotientsAgree : Obligations.EqualQuotientsAgree := by
  intro rsv k num den num' den' s hden hden' h
  have hquotient := ratOperand_eq_of_cross hden hden' h
  have hcheck := denCheck_eq_of_ne hden hden'
  simp only [exec, execSetPwmDuty, execSetPwmFreq, execSetAout, hquotient, hcheck, and_self]

end Sys2Proof.Machine
end

section
/-! The CRC engine (40_crc.md R151-R157). One step is linear over XOR and loses nothing, and a register with
an empty low byte is only shifted by eight of them. The table form, the residue property and the detection
of an error follow. -/
namespace Sys2Proof.Machine

/-! ### One bit (R151) -/

/-- Bit `i` after a step: the shifted register, and the polynomial where the bit shifted out is 1. -/
theorem getLsbD_crcStep (r : Half) (i : Nat) :
    (crcStep r).getLsbD i = (r.getLsbD (i + 1) ^^ (r.getLsbD 0 && crcPoly.getLsbD i)) := by
  unfold crcStep
  cases r.getLsbD 0 <;> simp [Nat.add_comm]

theorem crcStep_xor (r q : Half) : crcStep (r ^^^ q) = crcStep r ^^^ crcStep q := by
  refine BitVec.eq_of_getLsbD_eq fun i _ => ?_
  simp only [getLsbD_crcStep, BitVec.getLsbD_xor, Bool.and_xor_distrib_right, Bool.xor_assoc,
    Bool.xor_left_comm]

/-- The bit shifted out is the high bit of the result, since bit 15 of the polynomial is 1. -/
theorem getLsbD_crcStep_high (r : Half) : (crcStep r).getLsbD 15 = r.getLsbD 0 := by
  rw [getLsbD_crcStep, BitVec.getLsbD_of_ge r 16 le_rfl, Bool.false_xor]
  exact Bool.and_true _

/-- The bit shifted out is not lost, and with it the polynomial can be taken off again. -/
theorem crcStep_injective : Function.Injective crcStep := by
  intro r q h
  have hbit (i : Nat) : (crcStep r).getLsbD i = (crcStep q).getLsbD i := by rw [h]
  have hout : r.getLsbD 0 = q.getLsbD 0 := by
    rw [← getLsbD_crcStep_high, hbit, getLsbD_crcStep_high]
  refine BitVec.eq_of_getLsbD_eq fun i _ => ?_
  cases i with
  | zero => exact hout
  | succ i =>
    have hshift := hbit i
    rw [getLsbD_crcStep, getLsbD_crcStep, hout] at hshift
    exact Bool.xor_left_inj.1 hshift

/-! ### Several bits -/

theorem crcSteps_xor (n : Nat) (r q : Half) : crcSteps n (r ^^^ q) = crcSteps n r ^^^ crcSteps n q := by
  induction n generalizing r q with
  | zero => rfl
  | succ n ih => rw [crcSteps, crcStep_xor, ih, ← crcSteps, ← crcSteps]

theorem crcSteps_injective (n : Nat) : Function.Injective (crcSteps n) := by
  induction n with
  | zero => exact Function.injective_id
  | succ n ih => exact ih.comp crcStep_injective

/-- A register whose low `n` bits are clear is only shifted. -/
theorem crcSteps_of_low_clear {n : Nat} {r : Half} (h : ∀ i < n, r.getLsbD i = false) :
    crcSteps n r = r >>> n := by
  induction n generalizing r with
  | zero => exact (BitVec.ushiftRight_zero r).symm
  | succ n ih =>
    have hstep : crcStep r = r >>> 1 := if_neg (Bool.eq_false_iff.1 (h 0 n.succ_pos))
    have hshifted (i : Nat) (hi : i < n) : (r >>> 1).getLsbD i = false := by
      rw [BitVec.getLsbD_ushiftRight]
      exact h _ (by omega)
    rw [crcSteps, hstep, ih hshifted, ← BitVec.shiftRight_add, Nat.add_comm]

/-! ### The two bytes of the register -/

/-- The high byte of a register, shifted down. -/
theorem append_shiftRight_byte (y x : Byte) : (y ++ x : Half) >>> 8 = y.setWidth 16 := by
  refine BitVec.eq_of_toNat_eq ?_
  rw [BitVec.toNat_ushiftRight, toNat_append_add, BitVec.toNat_setWidth_of_le (by decide),
    Nat.shiftRight_eq_div_pow]
  omega

/-- A byte as a register (R152). -/
theorem byte_setWidth (b : Byte) : b.setWidth 16 = (0#8 ++ b : Half) :=
  BitVec.setWidth_eq_append (by decide)

/-- A byte XORed into the register changes its low byte only. -/
theorem append_xor_byte (y x b : Byte) : (y ++ x : Half) ^^^ b.setWidth 16 = y ++ (x ^^^ b) := by
  rw [byte_setWidth, BitVec.xor_append, BitVec.xor_zero]

/-- Eight steps move a high byte over an empty low byte into the low byte. -/
theorem crcSteps_append_zero (y : Byte) : crcSteps 8 (y ++ 0#8) = y.setWidth 16 := by
  have hlow (i : Nat) (hi : i < 8) : (y ++ 0#8).getLsbD i = false := by
    rw [BitVec.getLsbD_append, if_pos hi, BitVec.getLsbD_zero]
  rw [crcSteps_of_low_clear hlow, append_shiftRight_byte]

/-- Eight steps act on the two bytes apart. -/
theorem crcSteps_append (y x : Byte) : crcSteps 8 (y ++ x) = y.setWidth 16 ^^^ crcTable x := by
  have hsplit : (y ++ x : Half) = (y ++ 0#8) ^^^ x.setWidth 16 := by
    rw [append_xor_byte, BitVec.zero_xor]
  rw [hsplit, crcSteps_xor, crcSteps_append_zero, crcTable]

/-! ### One byte (R152, R157) -/

theorem crcByte_append (y x b : Byte) : crcByte (y ++ x) b = y.setWidth 16 ^^^ crcTable (x ^^^ b) := by
  rw [crcByte, append_xor_byte, crcSteps_append]

/-- Settles O50: the two bytes of the register go their own ways; the entries are evaluated. -/
theorem crcTableForm : Obligations.CrcTableForm := by
  refine ⟨fun r b => ?_, rfl, rfl, rfl, rfl, rfl, rfl⟩
  rw [← join_bytes16 r, crcByte_append, append_shiftRight_byte, append_xor_byte, extract_last]

/-- A byte does not make two registers one. -/
theorem crcByte_left_injective (b : Byte) : Function.Injective (crcByte · b) :=
  fun _ _ h => (BitVec.xor_left_inj _).1 (crcSteps_injective 8 h)

/-- A register does not make two bytes one. -/
theorem crcByte_right_injective (r : Half) : Function.Injective (crcByte r) := by
  intro a b h
  have hwide : a.setWidth 16 = b.setWidth 16 := (BitVec.xor_right_inj r).1 (crcSteps_injective 8 h)
  rw [byte_setWidth, byte_setWidth] at hwide
  exact (BitVec.append_right_inj 0#8).1 hwide

/-- A byte brings the register to a byte `y` exactly when it was the register's low byte under `y`. -/
theorem crcByte_eq_byte_iff (r : Half) (b y : Byte) : crcByte r b = y.setWidth 16 ↔ r = y ++ b := by
  have hback : (y ++ b : Half) ^^^ b.setWidth 16 = y ++ 0#8 := by
    rw [append_xor_byte, BitVec.xor_self]
  rw [crcByte, ← crcSteps_append_zero y, (crcSteps_injective 8).eq_iff, ← hback, BitVec.xor_left_inj]

/-! ### A sequence and its trailer (R153-R156) -/

/-- The residue is zero exactly when the trailer is the CRC, low byte first. -/
theorem crcCompute_trailer_eq_zero_iff (bs : List Byte) (x y : Byte) :
    crcCompute (bs ++ [x, y]) = 0 ↔ crcCompute bs = y ++ x := by
  calc crcCompute (bs ++ [x, y]) = 0
    _ ↔ crcByte (crcByte (crcCompute bs) x) y = (0#8).setWidth 16 := by
      rw [crcCompute, List.foldl_append]; rfl
    _ ↔ crcByte (crcCompute bs) x = 0#8 ++ y := crcByte_eq_byte_iff _ y 0
    _ ↔ crcByte (crcCompute bs) x = y.setWidth 16 := by rw [byte_setWidth]
    _ ↔ crcCompute bs = y ++ x := crcByte_eq_byte_iff _ x y

/-- CRC_VALIDATE of a sequence and its last two bytes. -/
theorem crcValidate_trailer_iff (bs : List Byte) (x y : Byte) :
    crcValidate (bs ++ [x, y]) = true ↔ crcCompute bs = y ++ x := by
  have hvalidate : crcValidate (bs ++ [x, y]) = ([x, y] == bytes16 (crcCompute bs)) := by
    simp [crcValidate, bytes16]
  have hjoin : halfAt [x, y] 0 = y ++ x := rfl
  rw [hvalidate, beq_iff_eq]
  constructor
  · intro h
    rw [← hjoin, h, halfAt_bytes16]
  · intro h
    rw [h, bytes16, extract_last, extract_append_high (b := 8) y x le_rfl, extract_all]

/-- R156's second form of CRC_VALIDATE. -/
theorem crcValidate_iff_residue {bs : List Byte} (h : 2 ≤ bs.length) :
    crcValidate bs = true ↔ crcCompute bs = 0 := by
  have hlast : (bs.drop (bs.length - 2)).length = 2 := by
    rw [List.length_drop]; omega
  obtain ⟨x, y, hxy⟩ := List.length_eq_two.1 hlast
  rw [← List.take_append_drop (bs.length - 2) bs, hxy, crcValidate_trailer_iff,
    crcCompute_trailer_eq_zero_iff]

theorem crcValidate_frame_iff (f : Frame) : crcValidate f.toList = true ↔ crcCompute f.toList = 0 :=
  crcValidate_iff_residue (by rw [Vector.length_toList]; decide)

/-- Settles O51: the residue is zero, and CRC_VALIDATE holds, exactly when the trailer is the CRC. -/
theorem crcResidue : Obligations.CrcResidue :=
  ⟨fun bs => (crcCompute_trailer_eq_zero_iff bs _ _).2 (join_bytes16 _).symm, crcValidate_frame_iff⟩

/-! ### An error in one byte (R154) -/

/-- The bytes after an error keep it in the register. -/
theorem foldl_crcByte_injective (bs : List Byte) : Function.Injective (bs.foldl crcByte ·) := by
  induction bs with
  | nil => exact Function.injective_id
  | cons b bs ih => exact ih.comp (crcByte_left_injective b)

/-- The CRC tells any two values of one byte apart. -/
theorem crcCompute_set_injective {bs : List Byte} {i : Nat} (hi : i < bs.length) :
    Function.Injective fun b => crcCompute (bs.set i b) := by
  intro a b h
  simp only [crcCompute, List.set_eq_take_append_cons_drop, if_pos hi, List.foldl_append,
    List.foldl_cons] at h
  exact crcByte_right_injective _ (foldl_crcByte_injective _ h)

/-- Settles O52: the frame with the error would have the residue 0 of the valid frame, and its CRC would
not tell the two values of the byte apart. -/
theorem singleByteErrorDetected : Obligations.SingleByteErrorDetected := by
  intro f i b hvalid hb
  have hself : f.toList.set i.val (f.get i) = f.toList := by
    rw [← Vector.toList_set i.isLt, Vector.get_eq_getElem, Vector.set_getElem_self]
  rw [← Bool.not_eq_true, crcValidate_frame_iff, Vector.toList_set]
  intro hresidue
  rw [crcValidate_frame_iff, ← hself, ← hresidue] at hvalid
  exact hb (crcCompute_set_injective (f.length_toList.symm ▸ i.isLt) hvalid).symm

/-- Settles O54: a reply's check is the one the trailer was written for. -/
theorem outboundFrameValid : Obligations.OutboundFrameValid := crcOk_encodeFrame

/-- Settles O49: the engine is evaluated. -/
theorem crcExamples : Obligations.CrcExamples := by
  unfold Obligations.CrcExamples
  decide +kernel

end Sys2Proof.Machine
end

section
/-! The conversion unit (41_conversion.md R170-R175): each quotient fits its 16-bit code, so the code's number
is the floor, and the fields of a divisor are read from its number. -/
namespace Sys2Proof.Machine

/-! ### The floor as a 16-bit code -/

/-- A non-negative quotient below 2^16 loses nothing when its floor becomes a code. -/
theorem toNat_code_eq_floor {q : Rat} (h0 : 0 ≤ q) (h : q < 65536) :
    ((BitVec.ofNat 16 q.floor.toNat).toNat : Int) = ⌊q⌋ := by
  have hnonneg : (0 : Int) ≤ ⌊q⌋ := Int.floor_nonneg.2 h0
  have hlt : ⌊q⌋ < 65536 := Int.floor_lt.2 (by exact_mod_cast h)
  change ((BitVec.ofNat 16 ⌊q⌋.toNat).toNat : Int) = ⌊q⌋
  rw [BitVec.toNat_ofNat]
  omega

/-! ### The divisor of a frequency (R170, R171) -/

/-- Masking a 16-bit number with 0xFFFC cuts it to a multiple of 4. -/
theorem and_reloadMask {n : Nat} (h : n < 65536) : n &&& 0xFFFC = n / 4 * 4 := by
  have hquot : (n &&& 0xFFFC) / 2 ^ 2 = n / 4 := by
    rw [Nat.and_div_two_pow]
    exact (Nat.and_two_pow_sub_one_eq_mod (n / 4) 14).trans (Nat.mod_eq_of_lt (by omega))
  have hrem : (n &&& 0xFFFC) % 2 ^ 2 = 0 := by
    rw [Nat.and_mod_two_pow]
    exact Nat.and_zero _
  omega

theorem divTier_eq (d : Half) : divTier d = BitVec.ofNat 2 d.toNat := by
  simp [divTier, BitVec.extractLsb']

theorem divReload_toNat (d : Half) : (divReload d).toNat = d.toNat / 4 * 4 := by
  rw [divReload, BitVec.toNat_and]
  exact and_reloadMask d.isLt

/-- The tier and the reload value of a quotient add up without a carry. -/
theorem divisorOf_toNat {tier : Nat} {q : Rat} (htier : tier < 4) (hq : q ≤ 62500) :
    (divisorOf tier q).toNat = tier + ⌊q⌋.toNat / 4 * 4 ∧ ⌊q⌋.toNat ≤ 62500 := by
  have hfloor : ⌊q⌋ ≤ 62500 := by exact_mod_cast (Int.floor_le q).trans hq
  change (BitVec.ofNat 16 (tier + (⌊q⌋.toNat &&& 0xFFFC))).toNat = _ ∧ _
  rw [and_reloadMask (by omega), BitVec.toNat_ofNat]
  omega

/-- The fields of a divisor are what it was made from (R171). -/
theorem divisorOf_fields {tier : Nat} {q : Rat} (htier : tier < 4) (hq : q ≤ 62500) :
    divTier (divisorOf tier q) = BitVec.ofNat 2 tier ∧
    (divReload (divisorOf tier q)).toNat = ⌊q⌋.toNat / 4 * 4 := by
  obtain ⟨hdiv, -⟩ := divisorOf_toNat htier hq
  constructor
  · apply BitVec.eq_of_toNat_eq
    rw [divTier_eq, hdiv, BitVec.toNat_ofNat, BitVec.toNat_ofNat]
    omega
  · rw [divReload_toNat, hdiv]
    omega

theorem divisorOf_le {tier : Nat} {q : Rat} (htier : tier < 4) (hq : q ≤ 62500) :
    (divisorOf tier q).toNat ≤ 62503 := by
  obtain ⟨hdiv, hfloor⟩ := divisorOf_toNat htier hq
  omega

/-- The four frequency ranges of R170, each with its tier and the clock base over its prescaler. -/
inductive FreqRange (f : Rat) : Nat → Rat → Prop
  | tier3 (hlo : 1 ≤ f) (hhi : f < 10) : FreqRange f 3 62500
  | tier2 (hlo : 10 ≤ f) (hhi : f < 100) : FreqRange f 2 500000
  | tier1 (hlo : 100 ≤ f) (hhi : f < 1000) : FreqRange f 1 4000000
  | tier0 (hlo : 1000 ≤ f) (hhi : f < 100000) : FreqRange f 0 32000000

namespace FreqRange
variable {f base : Rat} {tier : Nat}

theorem tier_lt (h : FreqRange f tier base) : tier < 4 := by
  cases h <;> decide

/-- The lower end of each range bounds its quotient: 62500 in tier 3, 50000, 40000 and 32000 below. -/
theorem quotient_le (h : FreqRange f tier base) : base / f ≤ 62500 := by
  have hpos : 0 < f := by cases h <;> linarith
  rw [div_le_iff₀ hpos]
  cases h <;> linarith

/-- In a range, CONV_FREQ2DIV takes that range's line of the table. -/
theorem convFreq2Div_eq (h : FreqRange f tier base) : convFreq2Div f = divisorOf tier (base / f) := by
  unfold convFreq2Div clockBase
  cases h with
  | tier3 hlo hhi => rw [if_neg (by linarith), if_pos hhi]; norm_num
  | tier2 hlo hhi => rw [if_neg (by linarith), if_neg (by linarith), if_pos hhi]; norm_num
  | tier1 hlo hhi =>
    rw [if_neg (by linarith), if_neg (by linarith), if_neg (by linarith), if_pos hhi]; norm_num
  | tier0 hlo hhi =>
    rw [if_neg (by linarith), if_neg (by linarith), if_neg (by linarith), if_neg (by linarith), if_pos hhi]
    norm_num

theorem fields (h : FreqRange f tier base) :
    divTier (convFreq2Div f) = BitVec.ofNat 2 tier ∧
    (divReload (convFreq2Div f)).toNat = ⌊base / f⌋.toNat / 4 * 4 := by
  rw [h.convFreq2Div_eq]
  exact divisorOf_fields h.tier_lt h.quotient_le

theorem convFreq2Div_le (h : FreqRange f tier base) : (convFreq2Div f).toNat ≤ 62503 := by
  rw [h.convFreq2Div_eq]
  exact divisorOf_le h.tier_lt h.quotient_le

end FreqRange

/-- Below 1 Hz, and from 100 kHz up, the divisor is 0. -/
theorem convFreq2Div_outside {f : Rat} (h : f < 1 ∨ 100000 ≤ f) : convFreq2Div f = 0 := by
  unfold convFreq2Div
  rcases h with hlow | hhigh
  · exact if_pos hlow
  · rw [if_neg (by linarith), if_neg (by linarith), if_neg (by linarith), if_neg (by linarith),
      if_neg (by linarith)]

/-- The ranges leave nothing out between 1 Hz and 100 kHz. -/
theorem freqRange_or_outside (f : Rat) :
    (∃ tier base, FreqRange f tier base) ∨ (f < 1 ∨ 100000 ≤ f) := by
  rcases lt_or_ge f 1 with hlow | h1
  · exact .inr (.inl hlow)
  rcases lt_or_ge f 10 with h | h10
  · exact .inl ⟨_, _, .tier3 h1 h⟩
  rcases lt_or_ge f 100 with h | h100
  · exact .inl ⟨_, _, .tier2 h10 h⟩
  rcases lt_or_ge f 1000 with h | h1000
  · exact .inl ⟨_, _, .tier1 h100 h⟩
  rcases lt_or_ge f 100000 with h | hhigh
  · exact .inl ⟨_, _, .tier0 h1000 h⟩
  · exact .inr (.inr hhigh)

/-- Settles O57: the fields range by range, and the bound from the ranges' covering. -/
theorem divisorTierAndReload : Obligations.DivisorTierAndReload := by
  intro f
  refine ⟨fun hlo hhi => (FreqRange.tier3 hlo hhi).fields, fun hlo hhi => (FreqRange.tier2 hlo hhi).fields,
    fun hlo hhi => (FreqRange.tier1 hlo hhi).fields, fun hlo hhi => (FreqRange.tier0 hlo hhi).fields,
    convFreq2Div_outside, ?_⟩
  rcases freqRange_or_outside f with ⟨_, _, hrange⟩ | houtside
  · exact hrange.convFreq2Div_le
  · rw [convFreq2Div_outside houtside]
    decide

/-! ### The analog-output code (R173, R175) -/

/-- Inside [0, 10) the code is the floor, and nothing is raised. -/
theorem convDac_inside {v : Rat} (h0 : 0 ≤ v) (h10 : v < 10) :
    ((convDac v).1.toNat : Int) = ⌊v * 4095 / 10⌋ ∧ (convDac v).2 = none := by
  rw [convDac, if_neg (not_le.2 h10), if_neg (not_lt.2 h0)]
  exact ⟨toNat_code_eq_floor (by linarith) (by linarith), rfl⟩

/-- Settles O58: a floor is at most one below its quotient, and the quotient is below 4095. -/
theorem dacQuantisation : Obligations.DacQuantisation := by
  intro v h0 h10
  obtain ⟨hcode, hside⟩ := convDac_inside h0 h10
  have hcast : ((convDac v).1.toNat : Rat) = (⌊v * 4095 / 10⌋ : Rat) := by
    rw [← hcode, Int.cast_natCast]
  have hle := Int.floor_le (v * 4095 / 10)
  have hlt := Int.lt_floor_add_one (v * 4095 / 10)
  have hmax : ⌊v * 4095 / 10⌋ < 4095 := Int.floor_lt.2 (by push_cast; linarith)
  rw [hcast]
  exact ⟨by linarith, by linarith, hside, by omega⟩

/-! ### The duty code (R172, R175) -/

/-- The duty code of a duty in [0, 1] is the floor: 65535 times the duty fits 16 bits. -/
theorem convDuty_toNat {d : Rat} (h0 : 0 ≤ d) (h1 : d ≤ 1) : ((convDuty d).toNat : Int) = ⌊65535 * d⌋ :=
  toNat_code_eq_floor (by linarith) (by linarith)

theorem convDuty_fraction {k : Nat} (h : k ≤ 65535) : (convDuty ((k : Rat) / 65535)).toNat = k := by
  have hk : (k : Rat) ≤ 65535 := by exact_mod_cast h
  have hfloor := convDuty_toNat (d := (k : Rat) / 65535) (by positivity) ((div_le_one (by norm_num)).2 hk)
  rw [mul_div_cancel₀ (k : Rat) (by norm_num), Int.floor_natCast] at hfloor
  exact_mod_cast hfloor

/-- Settles O59: the floor, the multiples of 1/65535, and the frame field's write and read. -/
theorem dutyCodeRoundTrip : Obligations.DutyCodeRoundTrip :=
  ⟨fun _ => convDuty_toNat, fun _ => convDuty_fraction, fun d f i h => rd16le_wr16le f i (convDuty d) h⟩

/-! ### The analog-input scaling (R174) -/

/-- Settles O60: the scaling divides by 4095 exactly. -/
theorem ainScaleExact : Obligations.AinScaleExact := by
  intro raw m
  rw [ainScale]
  exact div_mul_cancel₀ _ (by norm_num)

end Sys2Proof.Machine
end

section
/-! The frame codec: a reply whose CRC fails (42_frame_codec.md R200), the outbound fields (R190-R198) and the
inbound fields (R199-R207). -/
namespace Sys2Proof.Machine

/-! ### A reply whose CRC fails (R200, 44_scheduler.md R254) -/

theorem pendingWork_iff (s : State) :
    pendingWork s = true ↔ 0 < s.qlen ∨ (s.par.delayCountsInflight = true ∧ s.inflightV = true) := by
  simp [pendingWork]

theorem exec_xferDone_of_xfer (rx : Frame) {s : State} (h : s.fsm = .xfer) :
    exec (.xferDone rx) s = .next (schedule (dispatchReply rx s)) :=
  if_pos h

theorem exec_xferDone_of_ne_xfer (rx : Frame) {s : State} (h : s.fsm ≠ .xfer) :
    exec (.xferDone rx) s = .next s :=
  if_neg h

/-- Settles O39: the answer is one event, which SCHEDULE does not read. -/
theorem crcFailureDiscardsReply : Obligations.CrcFailureDiscardsReply := by
  intro rx s more hmore
  refine ⟨fun hxfer hcrc => ?_, exec_xferDone_of_ne_xfer rx⟩
  have hpending : pendingWork (s.answered [.frameError .crcMismatch rx]) = more :=
    Bool.eq_iff_iff.2 ((pendingWork_iff s).trans hmore.symm)
  rw [exec_xferDone_of_xfer rx hxfer, dispatchReply_of_invalid s hcrc, schedule_eq, hpending]
  rfl

/-! ### The outbound fields that are no registers (R192, R198) -/

/-- Byte 4 is written 0, and nothing after it writes it (R192). -/
theorem rd8_encodeFrame_reserved (s : State) : rd8 (encodeFrame s) 4 = 0 := by
  simp [encodeFrame, rd8_withTrailer, encodeBody, rd8_wr8_other, rd8_wr16le_other]

/-- The trailer read back is the CRC of the bytes before it, which its own write left alone (R198). -/
theorem rd16le_withTrailer_trailer (f : Frame) :
    rd16le (withTrailer f) 24 = crcCompute ((withTrailer f).toList.take 24) := by
  rw [take_withTrailer, withTrailer, rd16le_wr16le]

/-- The frame of the reset state: no register is set, and the CRC of 24 zero bytes is F77A (R190). -/
theorem encodeFrame_reset : (encodeFrame State.reset).toList = List.replicate 24 0 ++ [0x7A, 0xF7] := by
  decide +kernel

/-- Settles O53: the registers, the service field, the reserved byte and the trailer. -/
theorem outboundFrameFields : Obligations.OutboundFrameFields := by
  refine ⟨encodeFrame_reset, ?_⟩
  rintro s _ rfl
  have hout := carriesOutputs_encodeFrame s
  exact ⟨encodeFrame_service_of_clear, fun _ => encodeFrame_service_of_inflight,
    rd8_encodeFrame_reserved s, hout.ledCtrl, hout.ledVal, hout.dout, hout.pwmDiv0, hout.dutyCode0,
    hout.dutyCode1, hout.dutyCode2, hout.pwmDiv1, hout.dutyCode3, hout.dacCode0, hout.dacCode1,
    rd16le_withTrailer_trailer _⟩

/-! ### The record of a reply (R199) -/

/-- `d` holds what the rules read from `rx`, and the analog-input modes `modes`. -/
structure Decoded.ReadFrom (d : Decoded) (rx : Frame) (modes : Vector (BitVec 1) 2) : Prop where
  echoValue : d.echoValue = rd16le rx 0
  echoAddr : d.echoAddr = Machine.echoAddr rx
  echoErr : d.echoErr = Machine.echoErr rx
  status : d.status = rd8 rx 4
  din : d.din = (rd8 rx 7).extractLsb' 0 4
  cnt : d.cnt = #v[rd32le rx 8, rd32le rx 12]
  aiRaw : d.aiRaw = #v[rd16le rx 20, rd16le rx 22]
  aiMode : d.aiMode = modes

theorem decodeFrame_of_invalid {rx : Frame} (modes : Vector (BitVec 1) 2) (h : crcOk rx = false) :
    decodeFrame rx modes = none :=
  if_neg (Bool.eq_false_iff.1 h)

theorem decodeFrame_of_valid {rx : Frame} (modes : Vector (BitVec 1) 2) (h : crcOk rx = true) :
    ∃ d, decodeFrame rx modes = some d ∧ d.ReadFrom rx modes :=
  ⟨_, if_pos h, rfl, rfl, rfl, rfl, rfl, rfl, rfl, rfl⟩

/-! ### The inbound fields as numbers (R201-R206) -/

/-- A halfword of a frame, as a number: its lower offset is the less significant byte. -/
theorem rd16le_toNat (f : Frame) (i : Nat) (h : i + 1 < 26) :
    (rd16le f i h).toNat = f[i].toNat + 256 * f[i + 1].toNat := by
  rw [rd16le, toNat_append_add]
  omega

theorem echoWord_toNat (rx : Frame) : (echoWord rx).toNat = rx[2].toNat + 256 * rx[3].toNat :=
  rd16le_toNat rx 2 _

/-- The echoed address is the echo word modulo 2^13 (R202). -/
theorem echoAddr_toNat (rx : Frame) :
    (echoAddr rx).toNat = (rx[2].toNat + 256 * rx[3].toNat) % 8192 := by
  rw [echoAddr, BitVec.extractLsb'_toNat, Nat.shiftRight_zero, echoWord_toNat]

/-- Bit 13 of the echo word is bit 5 of its high byte (R202). -/
theorem echoErr_iff (rx : Frame) : echoErr rx = true ↔ rx[3].toNat / 32 % 2 = 1 := by
  have hlow : rx[2].toNat < 256 := rx[2].isLt
  rw [echoErr, BitVec.getLsbD, Nat.testBit_eq_decide_div_mod_eq, decide_eq_true_iff, echoWord_toNat]
  omega

/-- Settles O55: the record's fields as the decoder reads them, each turned into a number. -/
theorem inboundFrameFields : Obligations.InboundFrameFields := by
  intro rx modes
  refine ⟨decodeFrame_of_invalid modes, fun hcrc => ?_⟩
  obtain ⟨d, hdecode, hread⟩ := decodeFrame_of_valid modes hcrc
  refine ⟨d, hdecode, ?_, ?_, ?_, hread.status, ?_, ?_, ?_, ?_, ?_, hread.aiMode⟩
  · rw [hread.echoValue]
    exact rd16le_toNat rx 0 _
  · rw [hread.echoAddr]
    exact echoAddr_toNat rx
  · rw [hread.echoErr]
    exact echoErr_iff rx
  · rw [hread.din, BitVec.extractLsb'_toNat, Nat.shiftRight_zero]
    rfl
  · rw [Snapshot.counter, Decoded.snapshot, hread.cnt]
    rfl
  · rw [Snapshot.counter, Decoded.snapshot, hread.cnt]
    rfl
  · rw [hread.aiRaw]
    exact rd16le_toNat rx 20 _
  · rw [hread.aiRaw]
    exact rd16le_toNat rx 22 _

/-! ### The bits no rule reads (R207) -/

/-- The 14 bits of the echo word that R202 reads: its low byte, and six bits of its high byte. -/
theorem echoWord_used (rx : Frame) :
    (echoWord rx).extractLsb' 0 14 = (rx[3].extractLsb' 0 6 ++ rx[2] : BitVec 14) := by
  have hsplit : (echoWord rx).extractLsb' 8 6 ++ (echoWord rx).extractLsb' 0 8 =
      (echoWord rx).extractLsb' 0 14 := extract_join _ rfl
  rw [← hsplit, echoWord, rd16le, extract_last, extract_append_high (b := 8) _ _ le_rfl]

theorem echoAddr_eq_used (rx : Frame) :
    echoAddr rx = ((echoWord rx).extractLsb' 0 14).extractLsb' 0 13 :=
  (BitVec.extractLsb'_extractLsb'_of_le (by decide)).symm

theorem echoErr_eq_used (rx : Frame) :
    echoErr rx = ((echoWord rx).extractLsb' 0 14).getLsbD 13 :=
  (BitVec.getLsbD_extractLsb' 0 14 (echoWord rx) 13).symm

/-- The bytes that belong to an inbound field as a whole. -/
def fieldBytes : List Nat := [0, 1, 2, 4, 8, 9, 10, 11, 12, 13, 14, 15, 20, 21, 22, 23]

/-- `f` and `g` agree in every byte and bit that has an inbound field. -/
structure AgreeOnFields (f g : Frame) : Prop where
  bytes : ∀ i : Fin 26, i.val ∈ fieldBytes → f.get i = g.get i
  echoHigh : f[3].extractLsb' 0 6 = g[3].extractLsb' 0 6
  inputs : (rd8 f 7).extractLsb' 0 4 = (rd8 g 7).extractLsb' 0 4

namespace AgreeOnFields
variable {f g : Frame} {i : Nat}

theorem rd8_eq (h : AgreeOnFields f g) (hi : i < 26) (hfield : i ∈ fieldBytes) :
    rd8 f i hi = rd8 g i hi :=
  h.bytes ⟨i, hi⟩ hfield

theorem rd16le_eq (h : AgreeOnFields f g) (hi : i + 1 < 26) (hfield : ∀ k < 2, i + k ∈ fieldBytes) :
    rd16le f i hi = rd16le g i hi := by
  have hbyte (k : Nat) (hk : k < 2) : f[i + k] = g[i + k] := h.rd8_eq _ (hfield k hk)
  have hlow : f[i] = g[i] := hbyte 0 (by decide)
  rw [rd16le, rd16le, hbyte 1 (by decide), hlow]

theorem rd32le_eq (h : AgreeOnFields f g) (hi : i + 3 < 26) (hfield : ∀ k < 4, i + k ∈ fieldBytes) :
    rd32le f i hi = rd32le g i hi := by
  have hbyte (k : Nat) (hk : k < 4) : f[i + k] = g[i + k] := h.rd8_eq _ (hfield k hk)
  have hlow : f[i] = g[i] := hbyte 0 (by decide)
  rw [rd32le, rd32le, hbyte 3 (by decide), hbyte 2 (by decide), hbyte 1 (by decide), hlow]

theorem echoWord_used_eq (h : AgreeOnFields f g) :
    (echoWord f).extractLsb' 0 14 = (echoWord g).extractLsb' 0 14 := by
  have hlow : f[2] = g[2] := h.rd8_eq _ (by decide)
  rw [echoWord_used, echoWord_used, h.echoHigh, hlow]

/-- Frames that agree on the fields hold the same record. -/
theorem record_eq (h : AgreeOnFields f g) {modes : Vector (BitVec 1) 2} {d e : Decoded}
    (hd : d.ReadFrom f modes) (he : e.ReadFrom g modes) : d = e := by
  have haddr : echoAddr f = echoAddr g := by
    rw [echoAddr_eq_used, echoAddr_eq_used, h.echoWord_used_eq]
  have herr : echoErr f = echoErr g := by
    rw [echoErr_eq_used, echoErr_eq_used, h.echoWord_used_eq]
  have hcnt : d.cnt = e.cnt := by
    rw [hd.cnt, he.cnt, h.rd32le_eq (i := 8) _ (by decide), h.rd32le_eq (i := 12) _ (by decide)]
  have hraw : d.aiRaw = e.aiRaw := by
    rw [hd.aiRaw, he.aiRaw, h.rd16le_eq (i := 20) _ (by decide), h.rd16le_eq (i := 22) _ (by decide)]
  have hvalue : d.echoValue = e.echoValue := by
    rw [hd.echoValue, he.echoValue, h.rd16le_eq _ (by decide)]
  have hstatus : d.status = e.status := by
    rw [hd.status, he.status, h.rd8_eq _ (by decide)]
  have hdin : d.din = e.din := by
    rw [hd.din, he.din, h.inputs]
  rw [Decoded.mk.injEq]
  exact ⟨hvalue, hd.echoAddr.trans (haddr.trans he.echoAddr.symm),
    hd.echoErr.trans (herr.trans he.echoErr.symm), hstatus, hdin, hcnt, hraw,
    hd.aiMode.trans he.aiMode.symm⟩

end AgreeOnFields

/-- Settles O56: both frames decode, and to records read from the fields they agree on. -/
theorem decoderIgnoresUnusedBits : Obligations.DecoderIgnoresUnusedBits := by
  intro f g modes hf hg hbytes hecho hinputs
  have hagree : AgreeOnFields f g := ⟨hbytes, hecho, hinputs⟩
  obtain ⟨d, hdecodeF, hreadF⟩ := decodeFrame_of_valid modes hf
  obtain ⟨e, hdecodeG, hreadG⟩ := decodeFrame_of_valid modes hg
  rw [hdecodeF, hdecodeG, hagree.record_eq hreadF hreadG]

end Sys2Proof.Machine
end

section
/-! The service requests and the admission of a queued task (43_service_queue.md R222, R229, R230). -/
namespace Sys2Proof.Machine

/-! ### The checks of a service request (R229, R230) -/

theorem closedCheck_passes {s : State} : (closedCheck s).1 = false ↔ s.fsm ≠ .closed := by
  rw [← Bool.not_eq_true, closedCheck_fails]

theorem fullCheck_passes {s : State} : (fullCheck s).1 = false ↔ s.qlen ≠ s.par.qDepth := by
  rw [← Bool.not_eq_true, fullCheck_fails]

/-- The checks SVC_READ and SVC_WRITE share, in their order. -/
def serviceChecks (slot : Byte) (s : State) : List Check := [indexCheck 18 slot, closedCheck s, fullCheck s]

namespace ServiceChecks
variable {slot : Byte} {s : State}

theorem indexRange (hslot : 18 < slot.toNat) : firstCause (serviceChecks slot s) = some .indexRange :=
  firstCause_fails (indexCheck_fails.2 hslot)

theorem closed (hslot : slot.toNat ≤ 18) (hclosed : s.fsm = .closed) :
    firstCause (serviceChecks slot s) = some .closed :=
  (firstCause_passes (indexCheck_passes.2 hslot)).trans (firstCause_fails (closedCheck_fails.2 hclosed))

theorem queueFull (hslot : slot.toNat ≤ 18) (hopen : s.fsm ≠ .closed) (hfull : s.qlen = s.par.qDepth) :
    firstCause (serviceChecks slot s) = some .queueFull :=
  (firstCause_passes (indexCheck_passes.2 hslot)).trans <|
    (firstCause_passes (closedCheck_passes.2 hopen)).trans (firstCause_fails (fullCheck_fails.2 hfull))

theorem pass (hslot : slot.toNat ≤ 18) (hopen : s.fsm ≠ .closed) (hroom : s.qlen ≠ s.par.qDepth) :
    firstCause (serviceChecks slot s) = none :=
  (firstCause_passes (indexCheck_passes.2 hslot)).trans <|
    (firstCause_passes (closedCheck_passes.2 hopen)).trans (firstCause_passes (fullCheck_passes.2 hroom))

end ServiceChecks

/-! ### The service requests -/

/-- A slot field that passed its check names that slot (30_encoding.md R102). -/
theorem slotOperand_of_lt {slot : Byte} (h : slot.toNat < 19) : slotOperand slot = ⟨slot.toNat, h⟩ :=
  Fin.ext (Nat.mod_eq_of_lt h)

theorem exec_svcRead (slot : Byte) (tag : Half) (s : State) :
    exec (.svcRead slot tag) s =
      .next (command 0x30 (serviceChecks slot s) (enqueueAll [hostTask slot tag]) s) :=
  rfl

theorem exec_svcWrite (slot : Byte) (tag : Half) (prsv : BitVec 48) (value : Half) (s : State) :
    exec (.svcWrite slot tag prsv value) s =
      .next (command 0x31 (reservedCheck prsv :: serviceChecks slot s)
        (fun s => enqueueAll [hostTask slot tag] (s.setSlot (slotOperand slot) value)) s) :=
  rfl

/-- Settles O26: each clause is the first check that fails, or none. -/
theorem svcReadResult : Obligations.SvcReadResult := by
  intro slot tag s
  simp only [exec_svcRead]
  refine ⟨fun hslot => ?_, fun hslot hclosed => ?_, fun hslot hopen hfull => ?_,
    fun hslot hopen hroom => ?_⟩
  · rw [command_refused (ServiceChecks.indexRange hslot)]
  · rw [command_refused (ServiceChecks.closed hslot hclosed)]
  · rw [command_refused (ServiceChecks.queueFull hslot hopen hfull)]
  · rw [command_runs (ServiceChecks.pass (Nat.le_of_lt_succ hslot) hopen hroom), enqueueAll_one hroom,
      hostTask, slotOperand_of_lt hslot]

/-- Settles O27: the reserved bits are checked first; the slot is written only once every check passed. -/
theorem svcWriteResult : Obligations.SvcWriteResult := by
  intro slot tag prsv value s
  simp only [exec_svcWrite]
  refine ⟨fun hrsv => ?_, ?_⟩
  · rw [command_refused (firstCause_fails (reservedCheck_fails.2 hrsv))]
    rfl
  have hrest (hrsv : prsv = 0) : firstCause (reservedCheck prsv :: serviceChecks slot s) =
      firstCause (serviceChecks slot s) := firstCause_passes (reservedCheck_passes.2 hrsv)
  refine ⟨fun hrsv hslot => ?_, fun hrsv hslot hclosed => ?_, fun hrsv hslot hopen hfull => ?_,
    fun hrsv hslot hopen hroom => ?_⟩
  · rw [command_refused ((hrest hrsv).trans (ServiceChecks.indexRange hslot))]
  · rw [command_refused ((hrest hrsv).trans (ServiceChecks.closed hslot hclosed))]
  · rw [command_refused ((hrest hrsv).trans (ServiceChecks.queueFull hslot hopen hfull))]
  · rw [command_runs ((hrest hrsv).trans (ServiceChecks.pass (Nat.le_of_lt_succ hslot) hopen hroom)),
      enqueueAll_one (s := s.setSlot _ value) hroom, hostTask, slotOperand_of_lt hslot]
    rfl

/-! ### Admission (R222) -/

theorem takeTask_fifo (t : Task) (rest : List Task) : takeTask .fifo (t :: rest) = some (t, rest) := rfl

theorem takeTask_lifo (t : Task) (rest : List Task) : takeTask .lifo (rest ++ [t]) = some (t, rest) := by
  simp [takeTask]

theorem takeTask_nil (order : AdmitOrder) : takeTask order [] = none := by
  cases order <;> rfl

theorem admitNext_of_inflight {s : State} (h : s.inflightV = true) : admitNext s = s := if_pos h

theorem admitNext_of_take {s : State} {t : Task} {rest : List Task} (hclear : s.inflightV = false)
    (htake : takeTask s.par.admitOrder s.queue = some (t, rest)) :
    admitNext s = { s with inflightV := true, inflight := t, queue := rest } := by
  simp [admitNext, hclear, htake]

theorem admitNext_of_empty {s : State} (h : s.queue = []) : admitNext s = s := by
  simp [admitNext, h, takeTask_nil]

/-- Settles O28: by the order, the head or the last of the queue is what ADMIT takes. -/
theorem admitResult : Obligations.AdmitResult := by
  intro s t rest
  refine ⟨fun hclear horder hq => ?_, fun hclear horder hq => ?_, admitNext_of_inflight,
    admitNext_of_empty⟩
  · exact admitNext_of_take hclear (by rw [horder, hq, takeTask_fifo])
  · exact admitNext_of_take hclear (by rw [horder, hq, takeTask_lifo])

end Sys2Proof.Machine
end

section
/-! The configuration refresh (43_service_queue.md R228), as turns over a list of slots and their words. -/
namespace Sys2Proof.Machine

/-- The CFG task of a slot. -/
def cfgTask (i : SlotIdx) : Task := { slot := i, origin := .cfg, tag := BitVec.ofNat 16 i.val }

/-- Turns of CFG_REFRESH for these slots and words, in order. -/
def refreshSlots (ps : List (SlotIdx × Half)) (s : State) : State :=
  ps.foldl (fun s p => refreshSlot p.1 p.2 s) s

/-- Those of the slots that differ from their words, as many as the queue has room for. -/
def pushedSlots (ps : List (SlotIdx × Half)) (s : State) : List (SlotIdx × Half) :=
  (ps.filter fun p => s.slotValue p.1 != p.2).take (s.par.qDepth - s.qlen)

/-- `s` with these words in their slots and the slots' CFG tasks queued. -/
def State.pushCfg (s : State) (ps : List (SlotIdx × Half)) : State :=
  { s with
    slotVal := ps.foldl (fun v p => v.set p.1.val p.2 p.1.isLt) s.slotVal
    queue := s.queue ++ ps.map fun p => cfgTask p.1 }

theorem pushCfg_nil (s : State) : s.pushCfg [] = s := by
  simp [State.pushCfg]

theorem pushCfg_cons (s : State) (p : SlotIdx × Half) (ps : List (SlotIdx × Half)) :
    s.pushCfg (p :: ps) = (s.pushCfg [p]).pushCfg ps := by
  simp [State.pushCfg]

theorem cfgRefresh_eq_refreshSlots (s : State) :
    cfgRefresh s = refreshSlots [(14, baudWord s), (15, modeWord s), (16, boardWord s)] s :=
  rfl

/-- A turn for a slot that differs writes and queues it where the queue has room. -/
theorem refreshSlot_of_room {i : SlotIdx} {w : Half} {s : State} (hne : s.slotValue i ≠ w)
    (hroom : s.qlen ≠ s.par.qDepth) : refreshSlot i w s = s.pushCfg [(i, w)] := by
  rcases refreshSlot_cases i w s with ⟨-, hsame | hfull⟩ | ⟨-, -, h⟩
  · exact absurd hsame hne
  · exact absurd hfull hroom
  · exact h

theorem refreshSlot_of_eq {i : SlotIdx} {w : Half} {s : State} (h : s.slotValue i = w) :
    refreshSlot i w s = s :=
  if_pos h

theorem refreshSlot_of_full {i : SlotIdx} {w : Half} {s : State} (h : s.qlen = s.par.qDepth) :
    refreshSlot i w s = s := by
  rcases refreshSlot_cases i w s with ⟨hsame, -⟩ | ⟨-, hroom, -⟩
  · exact hsame
  · exact absurd h hroom

/-- Writing one slot leaves the value of every other. -/
theorem slotValue_pushCfg_other {i j : SlotIdx} (w : Half) (s : State) (h : j ≠ i) :
    (s.pushCfg [(i, w)]).slotValue j = s.slotValue j :=
  Vector.getElem_set_ne i.isLt j.isLt fun e => h (Fin.ext e.symm)

theorem qlen_pushCfg (s : State) (ps : List (SlotIdx × Half)) :
    (s.pushCfg ps).qlen = s.qlen + ps.length := by
  simp [State.qlen, State.pushCfg]

theorem pushedSlots_of_full {ps : List (SlotIdx × Half)} {s : State} (h : s.qlen = s.par.qDepth) :
    pushedSlots ps s = [] := by
  simp [pushedSlots, h]

theorem pushedSlots_cons_of_eq {i : SlotIdx} {w : Half} {ps : List (SlotIdx × Half)} {s : State}
    (h : s.slotValue i = w) : pushedSlots ((i, w) :: ps) s = pushedSlots ps s := by
  simp [pushedSlots, h]

/-- A slot that differs takes one place of the room; the slots after it are judged as before. -/
theorem pushedSlots_cons_of_room {i : SlotIdx} {w : Half} {ps : List (SlotIdx × Half)} {s : State}
    (hne : s.slotValue i ≠ w) (hroom : s.qlen < s.par.qDepth) (hother : ∀ p ∈ ps, p.1 ≠ i) :
    pushedSlots ((i, w) :: ps) s = (i, w) :: pushedSlots ps (s.pushCfg [(i, w)]) := by
  have hsame : (ps.filter fun p => (s.pushCfg [(i, w)]).slotValue p.1 != p.2) =
      ps.filter fun p => s.slotValue p.1 != p.2 :=
    List.filter_congr fun p hp => by rw [slotValue_pushCfg_other w s (hother p hp)]
  obtain ⟨k, hk⟩ : ∃ k, s.par.qDepth - s.qlen = k + 1 := ⟨s.par.qDepth - s.qlen - 1, by omega⟩
  have hleft : (s.pushCfg [(i, w)]).par.qDepth - (s.pushCfg [(i, w)]).qlen = k := by
    change s.par.qDepth - (s.pushCfg [(i, w)]).qlen = k
    rw [qlen_pushCfg, List.length_singleton]
    omega
  rw [pushedSlots, pushedSlots, hsame, hleft, hk, List.filter_cons_of_pos (by simpa using hne),
    List.take_succ_cons]

/-- The turns for distinct slots push the differing ones there is room for, and do nothing else. -/
theorem refreshSlots_eq {ps : List (SlotIdx × Half)} {s : State} (hdistinct : (ps.map Prod.fst).Nodup)
    (hfits : s.qlen ≤ s.par.qDepth) : refreshSlots ps s = s.pushCfg (pushedSlots ps s) := by
  induction ps generalizing s with
  | nil => rw [pushedSlots, List.filter_nil, List.take_nil, pushCfg_nil]; rfl
  | cons p ps ih =>
    obtain ⟨i, w⟩ := p
    obtain ⟨hnew, hrest⟩ := List.nodup_cons.1 hdistinct
    have hturn : refreshSlots ((i, w) :: ps) s = refreshSlots ps (refreshSlot i w s) := rfl
    rw [hturn]
    by_cases heq : s.slotValue i = w
    · rw [refreshSlot_of_eq heq, ih hrest hfits, pushedSlots_cons_of_eq heq]
    by_cases hfull : s.qlen = s.par.qDepth
    · rw [refreshSlot_of_full hfull, ih hrest hfits, pushedSlots_of_full hfull, pushedSlots_of_full hfull]
    have hroom : s.qlen < s.par.qDepth := Nat.lt_of_le_of_ne hfits hfull
    have hfits' : (s.pushCfg [(i, w)]).qlen ≤ s.par.qDepth := by
      rw [qlen_pushCfg]
      exact hroom
    have hother : ∀ p ∈ ps, p.1 ≠ i := fun p hp he => hnew (List.mem_map.2 ⟨p, hp, he⟩)
    rw [refreshSlot_of_room heq hfull, ih hrest hfits', pushedSlots_cons_of_room heq hroom hother,
      ← pushCfg_cons]

/-- Settles O29: CFG_REFRESH is the three turns for the distinct slots 14, 15 and 16. -/
theorem cfgRefreshResult : Obligations.CfgRefreshResult := by
  rintro s _ hfits rfl
  have hdistinct : ([14, 15, 16] : List SlotIdx).Nodup := by decide
  rw [cfgRefresh_eq_refreshSlots]
  exact refreshSlots_eq hdistinct hfits

end Sys2Proof.Machine
end

section
/-! The reply of an exchange against the in-flight task (43_service_queue.md R224-R227, 44_scheduler.md R254):
the whole state after a match and after no match. -/
namespace Sys2Proof.Machine

/-! ### The parts of a valid reply -/

/-- The snapshot a valid reply publishes under the analog-input modes `modes` (42_frame_codec.md R208). -/
def replySnapshot (rx : Frame) (modes : Vector (BitVec 1) 2) : Snapshot where
  din := (rd8 rx 7).extractLsb' 0 4
  cnt := #v[rd32le rx 8, rd32le rx 12]
  aiRaw := #v[rd16le rx 20, rd16le rx 22]
  aiMode := modes
  status := rd8 rx 4

/-- `s` with the snapshot of the reply `rx` published (44_scheduler.md R254). -/
def published (rx : Frame) (s : State) : State :=
  { s with snap := replySnapshot rx s.aiMode, snapV := true }

/-- The echo names a slot's address exactly when the 13 address bits agree (42_frame_codec.md R202): every
address of the table fits them. -/
theorem echo_matches_iff (rx : Frame) (i : SlotIdx) :
    (echoAddr rx).setWidth 16 = slotAddr i ↔
      (rd16le rx 2).extractLsb' 0 13 = (slotAddr i).extractLsb' 0 13 := by
  have hfits : ∀ i : SlotIdx, ((slotAddr i).extractLsb' 0 13).setWidth 16 = slotAddr i := by decide
  refine ⟨echo_bits_of_match, fun h => ?_⟩
  rw [← hfits i, ← h]
  rfl

/-- A valid reply publishes its snapshot, runs COMPLETE on its echo and signals DATA_READY (R254). -/
theorem dispatchReply_of_valid {rx : Frame} (s : State) (h : crcOk rx = true) :
    dispatchReply rx s =
      (complete (echoAddr rx) (rd16le rx 0) (echoErr rx) (published rx s)).emit
        (.dataReady (replySnapshot rx s.aiMode)) := by
  rcases dispatchReply_cases rx s with ⟨hcrc, -⟩ | ⟨d, hdecode, -, hd⟩
  · exact absurd (hcrc.symm.trans h) Bool.false_ne_true
  · rw [decodeFrame, if_pos h] at hdecode
    rw [hd, ← Option.some.inj hdecode]
    rfl

/-- A valid reply that echoes the in-flight task completes it before DATA_READY (R224, R225). -/
theorem dispatchReply_of_match {rx : Frame} {s : State} {t : Task} (h : crcOk rx = true)
    (ht : s.inflightTask = some t) (haddr : (echoAddr rx).setWidth 16 = slotAddr t.slot) :
    dispatchReply rx s =
      (completeMatch t (rd16le rx 0) (echoErr rx) (published rx s)).emit
        (.dataReady (replySnapshot rx s.aiMode)) := by
  rw [dispatchReply_of_valid s h]
  rcases complete_cases (echoAddr rx) (rd16le rx 0) (echoErr rx) (published rx s) with
    ⟨-, hno⟩ | ⟨u, hu, -, hc⟩
  · exact absurd haddr (hno t ht)
  · obtain rfl : u = t := Option.some.inj (hu.symm.trans ht)
    rw [hc]

/-- A valid reply that echoes no task in flight publishes its snapshot and completes nothing (R226). -/
theorem dispatchReply_of_no_match {rx : Frame} {s : State} (h : crcOk rx = true)
    (hno : ∀ t, s.inflightTask = some t → (echoAddr rx).setWidth 16 ≠ slotAddr t.slot) :
    dispatchReply rx s = { s with
      snap := replySnapshot rx s.aiMode, snapV := true
      outs := s.outs ++ [.dataReady (replySnapshot rx s.aiMode)] } := by
  rw [dispatchReply_of_valid s h]
  rcases complete_cases (echoAddr rx) (rd16le rx 0) (echoErr rx) (published rx s) with
    ⟨hc, -⟩ | ⟨t, ht, haddr, -⟩
  · rw [hc]
    rfl
  · exact absurd haddr (hno t ht)

/-! ### The state after the reply -/

/-- With nothing in flight only queued tasks start the next cycle at once (44_scheduler.md R256). -/
theorem pendingWork_of_clear {s : State} (h : s.inflightV = false) : pendingWork s = decide (0 < s.qlen) := by
  simp [pendingWork, h]

/-- Settles O40: the dispatch of a match, and SCHEDULE with nothing in flight. -/
theorem matchedReplyResult : Obligations.MatchedReplyResult := by
  rintro rx s t hxfer hcrc ht hecho _ _ _ rfl rfl rfl
  have haddr := (echo_matches_iff rx t.slot).2 hecho
  have hlast : (published rx s).openRem - 1 = 0 ↔ s.openRem = 1 := sub_eq_zero
  rw [exec_xferDone_of_xfer rx hxfer, dispatchReply_of_match hcrc ht haddr, completeMatch_eq, schedule_eq,
    pendingWork_of_clear rfl]
  simp only [hlast, decide_eq_true_eq]
  rfl

/-- Settles O41: the dispatch without a match, and SCHEDULE on the queue and the task as they were. -/
theorem unmatchedReplyResult : Obligations.UnmatchedReplyResult := by
  rintro rx s _ more hxfer hcrc hdiffers rfl hmore
  have hno : ∀ t, s.inflightTask = some t → (echoAddr rx).setWidth 16 ≠ slotAddr t.slot := by
    intro t ht haddr
    refine hdiffers t ht ?_
    rw [← haddr, BitVec.toNat_setWidth_of_le (by decide)]
    rfl
  have hpending : pendingWork s = more := Bool.eq_iff_iff.2 ((pendingWork_iff s).trans hmore.symm)
  rw [exec_xferDone_of_xfer rx hxfer, dispatchReply_of_no_match hcrc hno, schedule_eq, ← hpending]
  rfl

end Sys2Proof.Machine
end

section
/-! The life of the task in flight (43_service_queue.md R220, R231, 70_reset_and_hazards.md R347): across a
step it is kept, admitted or completed. -/
namespace Sys2Proof.Machine

/-- The tasks whose completion the events between `s` and `t` report, in order. -/
def completions (s t : State) : List Task := (newOuts s t).filterMap Event.completes

theorem completions_of_append {s t : State} {evs : List Event} (h : t.outs = s.outs ++ evs) :
    completions s t = evs.filterMap Event.completes := by
  rw [completions, newOuts_of_append h]

/-- What becomes of the task in flight, and the completions reported, from `s` to `t`. -/
inductive InFlightMove (s t : State) : Prop
  /-- The task in flight stays, or none is before and after. -/
  | kept (htask : t.inflightTask = s.inflightTask) (hnone : completions s t = [])
  /-- A frame build puts a task in flight where there was none. -/
  | admitted (hclear : s.inflightV = false) (hbuild : s.fsm = .build) (hxfer : t.fsm = .xfer)
      (hnone : completions s t = [])
  /-- The task in flight is completed, and nothing else is. -/
  | completed (task : Task) (htask : s.inflightTask = some task) (hclear : t.inflightV = false)
      (hone : completions s t = [task])

namespace InFlightMove
variable {s t : State}

/-- Other events than completions, with the task in flight as it was. -/
theorem of_events {evs : List Event} (htask : t.inflightTask = s.inflightTask)
    (houts : t.outs = s.outs ++ evs) (hevs : ∀ e ∈ evs, e.completes = none) : InFlightMove s t :=
  .kept htask (by rw [completions_of_append houts, List.filterMap_eq_nil_iff]; exact hevs)

theorem of_event {e : Event} (htask : t.inflightTask = s.inflightTask) (houts : t.outs = s.outs ++ [e])
    (he : e.completes = none) : InFlightMove s t :=
  of_events htask houts (List.forall_mem_singleton.2 he)

theorem of_silent (htask : t.inflightTask = s.inflightTask) (houts : t.outs = s.outs) : InFlightMove s t :=
  of_events (evs := []) htask (by rw [houts, List.append_nil]) (fun _ he => nomatch he)

/-- Taking an input off the inbox is no part of the move. -/
theorem of_taken {rest : List Msg} (h : InFlightMove { s with inbox := rest } t) : InFlightMove s t := by
  cases h with
  | kept htask hnone => exact .kept htask hnone
  | admitted hclear hbuild hxfer hnone => exact .admitted hclear hbuild hxfer hnone
  | completed task htask hclear hone => exact .completed task htask hclear hone

/-- A frame build keeps the task in flight or admits one, and its event is the request (R222). -/
theorem buildFrame (hbuild : s.fsm = .build) : InFlightMove s (buildFrame s) := by
  obtain ⟨vals, q, v, task, tx, hb, ⟨rfl, rfl⟩ | ⟨hclear, rfl⟩⟩ := buildFrame_frame s
  · rw [hb]
    exact of_event rfl rfl rfl
  · rw [hb]
    exact .admitted hclear hbuild rfl (completions_of_append (evs := [.xferReq tx]) rfl)

/-- A reply that is valid and echoes the address of the task in flight completes it; any other keeps it
(R224-R226). -/
theorem reply (rx : Frame) (s : State) : InFlightMove s (schedule (dispatchReply rx s)) := by
  rw [schedule_eq]
  cases hcrc : crcOk rx with
  | false =>
    rw [dispatchReply_of_invalid s hcrc]
    exact of_event rfl rfl rfl
  | true =>
    by_cases hmatch : ∃ t, s.inflightTask = some t ∧ (echoAddr rx).setWidth 16 = slotAddr t.slot
    · obtain ⟨t, ht, haddr⟩ := hmatch
      rw [dispatchReply_of_match hcrc ht haddr, completeMatch_eq]
      refine .completed t ht rfl ?_
      rw [completions_of_append (by simp only [emit_outs, List.append_assoc]; rfl)]
      cases echoErr rx <;> split_ifs <;> rfl
    · rw [dispatchReply_of_no_match hcrc fun t ht haddr => hmatch ⟨t, ht, haddr⟩]
      exact of_event rfl rfl rfl

/-- Every outcome of an instruction. -/
theorem of_effect {i : Instr} (h : Effect i s t) : InFlightMove s t := by
  cases h with
  | refused => exact of_event rfl rfl rfl
  | ignored => exact of_silent rfl rfl
  | configured _ r evs hwarn =>
    refine of_events rfl rfl fun e he => ?_
    obtain ⟨c, side, rfl⟩ := hwarn e he
    rfl
  | opened => exact of_silent rfl rfl
  | shut =>
    refine of_events rfl rfl fun e he => ?_
    split_ifs at he
    · exact nomatch he
    · rw [List.mem_singleton.1 he]
      rfl
  | readQueued => exact of_silent rfl rfl
  | writeQueued => exact of_silent rfl rfl
  | built hbuild => exact buildFrame hbuild
  | replied rx => exact reply rx s
  | failed reason =>
    rw [schedule_eq]
    exact of_event rfl rfl rfl
  | ticked =>
    rw [countTick_eq]
    exact of_silent rfl rfl

/-- Every step. -/
theorem of_step (h : step s = .next t) : InFlightMove s t := by
  rcases step_cases h with ⟨-, -, rfl⟩ | ⟨-, -, hexec⟩ | ⟨m, rest, i, -, -, hexec⟩ |
    ⟨m, rest, op, -, -, rfl⟩
  · exact of_silent rfl rfl
  · exact of_effect (exec_effect hexec)
  · exact of_taken (of_effect (exec_effect hexec))
  · exact of_event rfl rfl rfl

end InFlightMove

/-- Settles O30: of the three moves only the completion ends a flight, and only the admission begins one. -/
theorem inFlightHeldUntilCompleted : Obligations.InFlightHeldUntilCompleted := by
  intro s t hstep
  cases InFlightMove.of_step hstep with
  | kept htask _ =>
    refine ⟨fun x hx => .inl (htask.trans hx), fun x hclear hx => ?_⟩
    rw [htask, inflightTask_eq_none.2 hclear] at hx
    exact nomatch hx
  | admitted hclear hbuild hxfer _ =>
    refine ⟨fun x hx => ?_, fun _ _ _ => ⟨hbuild, hxfer⟩⟩
    rw [inflightTask_eq_none.2 hclear] at hx
    exact nomatch hx
  | completed task htask hclear hone =>
    refine ⟨fun x hx => .inr ⟨hclear, ?_⟩, fun x _ hx => ?_⟩
    · obtain rfl : task = x := Option.some.inj (htask.symm.trans hx)
      exact hone
    · rw [inflightTask_eq_none.2 hclear] at hx
      exact nomatch hx

/-- Settles O31: the completion of the task in flight is the one move that reports any. -/
theorem noDoubleResolution : Obligations.NoDoubleResolution := by
  intro s t hstep
  cases InFlightMove.of_step hstep with
  | kept _ hnone => exact .inl hnone
  | admitted _ _ _ hnone => exact .inl hnone
  | completed task htask hclear hone => exact .inr ⟨task, htask, hclear, hone⟩

end Sys2Proof.Machine
end

section
/-! The commands and inputs of the cyclic scheduler, one outcome per state (44_scheduler.md R251-R258), and the
cadence they make. -/
namespace Sys2Proof.Machine

/-! ### OPEN and CLOSE (R251, R252) -/

/-- The checks of OPEN, in their order. -/
def openChecks (rsv : BitVec 24) (s : State) : List Check :=
  [reservedCheck rsv, (s.fsm != .idle, .badState), openRoomCheck s]

namespace OpenChecks
variable {rsv : BitVec 24} {s : State}

theorem reserved (hrsv : rsv ≠ 0) : firstCause (openChecks rsv s) = some .reservedNonzero :=
  firstCause_fails (reservedCheck_fails.2 hrsv)

theorem badState (hrsv : rsv = 0) (hopened : s.fsm ≠ .idle) : firstCause (openChecks rsv s) = some .badState :=
  (firstCause_passes (reservedCheck_passes.2 hrsv)).trans (firstCause_fails (bne_iff_ne.2 hopened))

/-- In IDLE without reserved bits the room decides. -/
theorem of_idle (hrsv : rsv = 0) (hidle : s.fsm = .idle) :
    firstCause (openChecks rsv s) = firstCause [openRoomCheck s] :=
  (firstCause_passes (reservedCheck_passes.2 hrsv)).trans (firstCause_passes (bne_eq_false_iff_eq.2 hidle))

theorem queueFull (hrsv : rsv = 0) (hidle : s.fsm = .idle) (hfull : s.par.qDepth < s.qlen + 19) :
    firstCause (openChecks rsv s) = some .queueFull :=
  (of_idle hrsv hidle).trans (firstCause_fails (openRoomCheck_fails.2 hfull))

theorem pass (hrsv : rsv = 0) (hidle : s.fsm = .idle) (hroom : s.qlen + 19 ≤ s.par.qDepth) :
    firstCause (openChecks rsv s) = none := by
  have hcheck : (openRoomCheck s).1 = false := by rwa [← Bool.not_eq_true, openRoomCheck_fails, not_lt]
  exact (of_idle hrsv hidle).trans (firstCause_passes hcheck)

end OpenChecks

theorem exec_openCmd (rsv : BitVec 24) (s : State) :
    exec (.openCmd rsv) s = .next (command 0x01 (openChecks rsv s)
      (fun s => { enqueueAll openTasks s with openRem := 19, openRej := false, fsm := .build }) s) :=
  rfl

/-- Settles O32: each clause is the first check that fails, or none; the nineteen ENQUEUEs then all have
room. -/
theorem openResult : Obligations.OpenResult := by
  intro rsv s
  simp only [exec_openCmd]
  refine ⟨fun hrsv => ?_, fun hrsv hopened => ?_, fun hrsv hidle hfull => ?_, fun hrsv hidle hroom => ?_⟩
  · rw [command_refused (OpenChecks.reserved hrsv)]
  · rw [command_refused (OpenChecks.badState hrsv hopened)]
  · rw [command_refused (OpenChecks.queueFull hrsv hidle (by omega))]
  · have hfits : s.qlen + 19 ≤ s.par.qDepth := by omega
    rw [command_runs (OpenChecks.pass hrsv hidle hfits), enqueueAll_of_room (ts := openTasks) hfits]
    rfl

/-- Settles O33: the two checks in their order, then the release unless the block is idle. -/
theorem closeResult : Obligations.CloseResult := by
  intro rsv s
  simp only [exec, execClose]
  refine ⟨fun hrsv => ?_, fun hrsv hclosed => ?_, fun hrsv hopen => ?_⟩
  · rw [command_refused (firstCause_fails (reservedCheck_fails.2 hrsv))]
    rfl
  · rw [command_refused ((firstCause_passes (reservedCheck_passes.2 hrsv)).trans
      (firstCause_fails (beq_iff_eq.2 hclosed)))]
  · rw [command_runs ((firstCause_passes (reservedCheck_passes.2 hrsv)).trans
      (firstCause_passes (beq_eq_false_iff_ne.2 hopen)))]
    split_ifs
    · rw [List.append_nil]
    · rfl

/-! ### BUILD_STEP (R253) -/

theorem exec_buildStep_of_build {s : State} (h : s.fsm = .build) : exec .buildStep s = .next (buildFrame s) :=
  if_pos h

/-- Settles O34: the refresh writes the slot values and the queue, the admission the queue and the in-flight
task; the request adds `s.tx`, its event and XFER. -/
theorem buildStepResult : Obligations.BuildStepResult := by
  intro s
  refine ⟨fun hbuild => ⟨_, rfl, ?_⟩, fun hother => if_neg hother⟩
  obtain ⟨vals, ts, hrefresh, -⟩ := cfgRefresh_frame s
  rw [exec_buildStep_of_build hbuild, buildFrame_eq, hrefresh]
  rcases admitNext_cases { s with slotVal := vals, queue := s.queue ++ ts } with
    ⟨hadmit, -⟩ | ⟨-, t, l, r, -, hadmit⟩
  · rw [hadmit]
  · rw [hadmit]

/-! ### TICK (R257) -/

/-- Settles O36: the counter reaches 0 exactly from 1. -/
theorem tickResult : Obligations.TickResult := by
  intro s
  refine ⟨fun hwait => ?_, fun hother => if_neg hother⟩
  have hcount : exec .tick s = .next (countTick s) := if_pos hwait
  have hlast : s.dly - 1 = 0 ↔ s.dly = 1 := sub_eq_zero
  rw [hcount, countTick_eq, hwait]
  simp only [hlast]

/-- A step that takes a TICK in WAIT. -/
theorem step_tick {s : State} {rest : List Msg} (hwait : s.fsm = .wait) (hinbox : s.inbox = encode .tick :: rest) :
    step s = .next { s with
      dly := s.dly - 1, fsm := if s.dly = 1 then .build else .wait, inbox := rest } :=
  (stepRunsDecoded s _ rest .tick hinbox (decodeOfEncode .tick)).trans
    ((tickResult { s with inbox := rest }).1 hwait)

/-- A TICK before the last leaves the block waiting. -/
theorem step_tick_waits {s : State} {rest : List Msg} (hwait : s.fsm = .wait) (hmore : s.dly ≠ 1)
    (hinbox : s.inbox = encode .tick :: rest) :
    step s = .next { s with dly := s.dly - 1, inbox := rest } := by
  rw [step_tick hwait hinbox, if_neg hmore, ← hwait]

/-- The last TICK starts the next cycle. -/
theorem step_tick_starts {s : State} {rest : List Msg} (hwait : s.fsm = .wait) (hlast : s.dly = 1)
    (hinbox : s.inbox = encode .tick :: rest) :
    step s = .next { s with fsm := .build, dly := 0, inbox := rest } := by
  rw [step_tick hwait hinbox, if_pos hlast, hlast]
  rfl

/-- A run goes on from where its first step leads. -/
theorem run_succ_of_step {s s' : State} (k : Nat) (h : step s = .next s') :
    core.run (k + 1) s = core.run k s' := by
  have hstep : core.step s = .next s' := h
  simp only [Host.Core.run, hstep]

/-- Settles O37, by induction on the TICKs before the last. -/
theorem ticksStartNextCycle : Obligations.TicksStartNextCycle := by
  intro n
  induction n with
  | zero =>
    intro s rest hwait hdly hinbox
    have hlast : s.dly = 1 := BitVec.eq_of_toNat_eq hdly
    have htaken : s.inbox = encode .tick :: rest := hinbox
    have hnow : s = { s with dly := 1, inbox := encode .tick :: rest } := by rw [← hlast, ← htaken]
    exact ⟨congrArg Host.Outcome.next hnow, run_succ_of_step 0 (step_tick_starts hwait hlast htaken)⟩
  | succ n ih =>
    intro s rest hwait hdly hinbox
    have hmore : s.dly ≠ 1 := fun h1 => by simp [h1] at hdly
    have hnext : (s.dly - 1).toNat = n + 1 := by bv_omega
    have hstep := step_tick_waits hwait hmore hinbox
    rw [run_succ_of_step n hstep, run_succ_of_step (n + 1) hstep]
    exact ih { s with dly := s.dly - 1, inbox := _ } rest hwait hnext rfl

/-! ### The answers of the transport (R254-R256, R260) -/

theorem exec_xferFail_of_xfer (reason : Byte) {s : State} (h : s.fsm = .xfer) :
    exec (.xferFail reason) s = .next (schedule (s.emit (.transportError reason))) :=
  if_pos h

/-- Settles O38: the answer is one event, which SCHEDULE does not read. -/
theorem xferFailResult : Obligations.XferFailResult := by
  intro reason s
  have hpending : pendingWork (s.emit (.transportError reason)) = pendingWork s := rfl
  refine ⟨fun hxfer hmore => ?_, fun hxfer hempty hidle => ?_, fun hother => if_neg hother⟩
  · rw [exec_xferFail_of_xfer reason hxfer, schedule_eq, hpending, (pendingWork_iff s).2 hmore]
    rfl
  · have hnone : pendingWork s = false := by
      rcases hidle with h | h <;> simp [pendingWork, hempty, h]
    rw [exec_xferFail_of_xfer reason hxfer, schedule_eq, hpending, hnone]
    rfl

/-- SCHEDULE where the in-flight task does not count: the queue alone decides (R256). -/
theorem schedule_cadence {s : State} (h : s.par.delayCountsInflight = false) :
    (0 < (schedule s).qlen → (schedule s).fsm = .build) ∧
    ((schedule s).qlen = 0 → (schedule s).fsm = .wait ∧ (schedule s).dly = (schedule s).par.periodTicks) := by
  have hpending : pendingWork s = decide (0 < s.qlen) := by simp [pendingWork, h]
  rw [schedule_eq, hpending]
  refine ⟨fun hmore => if_pos (decide_eq_true hmore), fun hempty => ?_⟩
  have hqlen : s.qlen = 0 := hempty
  have hnone : ¬ decide (0 < s.qlen) = true := by simp [hqlen]
  exact ⟨if_neg hnone, if_neg hnone⟩

theorem dispatchReply_par (rx : Frame) (s : State) : (dispatchReply rx s).par = s.par := by
  cases hcrc : crcOk rx with
  | false => rw [dispatchReply_of_invalid s hcrc, answered_par]
  | true =>
    obtain ⟨_, _, _, _, _, _, hd, -⟩ := dispatchReply_frame s hcrc
    rw [hd]

/-- Settles O42: both answers end in SCHEDULE. -/
theorem cadenceAfterAnswer : Obligations.CadenceAfterAnswer := by
  rintro i s hxfer hnot (⟨rx, rfl⟩ | ⟨r, rfl⟩)
  · exact ⟨_, exec_xferDone_of_xfer rx hxfer, schedule_cadence (by rwa [dispatchReply_par])⟩
  · exact ⟨_, exec_xferFail_of_xfer r hxfer, schedule_cadence hnot⟩

/-- Settles O43: the dispatch of a wrong CRC, of a match and of no match; SCHEDULE emits nothing. -/
theorem completionBeforeDataReady : Obligations.CompletionBeforeDataReady := by
  intro rx s hxfer
  refine ⟨_, exec_xferDone_of_xfer rx hxfer, ?_⟩
  rw [schedule_eq]
  cases hcrc : crcOk rx with
  | false =>
    rw [dispatchReply_of_invalid s hcrc]
    exact .inl ⟨hcrc, newOuts_of_append rfl⟩
  | true =>
    refine .inr ⟨hcrc, ?_⟩
    by_cases hmatch : ∃ t, s.inflightTask = some t ∧ (echoAddr rx).setWidth 16 = slotAddr t.slot
    · obtain ⟨t, ht, haddr⟩ := hmatch
      rw [dispatchReply_of_match hcrc ht haddr, completeMatch_eq]
      refine ⟨_, _, newOuts_of_append (by simp only [emit_outs, List.append_assoc]; rfl), .inr ?_, ?_⟩
      · refine ⟨t, rd16le rx 0, ?_⟩
        cases echoErr rx with
        | false => exact .inl rfl
        | true => exact .inr rfl
      · by_cases hlast : t.origin = .opened ∧ (published rx s).openRem - 1 = 0
        · exact .inr ⟨List.cons_ne_nil _ _, _, if_pos hlast⟩
        · exact .inl (if_neg hlast)
    · rw [dispatchReply_of_no_match hcrc fun t ht haddr => hmatch ⟨t, ht, haddr⟩]
      exact ⟨[], [], newOuts_of_append rfl, .inl rfl, .inl rfl⟩

end Sys2Proof.Machine
end

section
/-! One exchange at a time (44_scheduler.md R250, R253, R259): which steps request an exchange and enter XFER,
and which leave it. -/
namespace Sys2Proof.Machine

/-- What becomes of XFER, and the requests emitted, from `s` to `t`. -/
inductive RequestMove (s t : State) : Prop
  /-- A frame build enters XFER with its request and no other event. -/
  | requested (hbuild : s.fsm = .build) (hxfer : t.fsm = .xfer) (hreq : newOuts s t = [.xferReq t.tx])
  /-- XFER is not entered and nothing is requested. -/
  | quiet (hfsm : t.fsm = .xfer → s.fsm = .xfer) (hnone : ∀ f, Event.xferReq f ∉ newOuts s t)

namespace RequestMove
variable {s t : State}

/-- Other events than requests, without entering XFER. -/
theorem of_events {evs : List Event} (hfsm : t.fsm = .xfer → s.fsm = .xfer)
    (houts : t.outs = s.outs ++ evs) (hevs : ∀ f, Event.xferReq f ∉ evs) : RequestMove s t :=
  .quiet hfsm (by rwa [newOuts_of_append houts])

theorem of_silent (hfsm : t.fsm = .xfer → s.fsm = .xfer) (houts : t.outs = s.outs) : RequestMove s t :=
  of_events (evs := []) hfsm (by rw [houts, List.append_nil]) (fun _ => List.not_mem_nil)

/-- Taking an input off the inbox is no part of the move. -/
theorem of_taken {rest : List Msg} (h : RequestMove { s with inbox := rest } t) : RequestMove s t := by
  cases h with
  | requested hbuild hxfer hreq => exact .requested hbuild hxfer hreq
  | quiet hfsm hnone => exact .quiet hfsm hnone

/-- The events of an answered exchange are no requests (R254). -/
theorem reply (rx : Frame) (hxfer : s.fsm = .xfer) : RequestMove s (schedule (dispatchReply rx s)) := by
  obtain ⟨t, hexec, hevents⟩ := completionBeforeDataReady rx s hxfer
  obtain rfl := Host.Outcome.next.inj ((exec_xferDone_of_xfer rx hxfer).symm.trans hexec)
  refine .quiet (fun _ => hxfer) fun f => ?_
  rcases hevents with ⟨-, hnew⟩ | ⟨-, c, d, hnew, hc, hd⟩
  · simp [hnew]
  · have hcompletion : Event.xferReq f ∉ c := by
      rcases hc with rfl | ⟨x, v, rfl | rfl⟩ <;> simp
    have hopenDone : Event.xferReq f ∉ d := by
      rcases hd with rfl | ⟨-, b, rfl⟩ <;> simp
    simp [hnew, hcompletion, hopenDone]

/-- Every outcome of an instruction. -/
theorem of_effect {i : Instr} (h : Effect i s t) : RequestMove s t := by
  cases h with
  | refused => exact of_events id rfl (by simp)
  | ignored => exact of_silent id rfl
  | configured _ r evs hwarn =>
    refine of_events id rfl fun f hf => ?_
    obtain ⟨c, side, hne⟩ := hwarn _ hf
    exact nomatch hne
  | opened => exact of_silent nofun rfl
  | shut => exact of_events nofun rfl (by split_ifs <;> simp)
  | readQueued => exact of_silent id rfl
  | writeQueued => exact of_silent id rfl
  | built hbuild =>
    obtain ⟨_, _, _, _, tx, hb, -⟩ := buildFrame_frame s
    rw [hb]
    exact .requested hbuild rfl (newOuts_of_append rfl)
  | replied rx hxfer => exact reply rx hxfer
  | failed reason hxfer =>
    rw [schedule_eq]
    exact of_events (fun _ => hxfer) rfl (by simp)
  | ticked hwait =>
    rw [countTick_eq]
    refine of_silent (fun hx => ?_) rfl
    split_ifs at hx
    exact hx

/-- Every step. -/
theorem of_step (h : step s = .next t) : RequestMove s t := by
  rcases step_cases h with ⟨-, -, rfl⟩ | ⟨-, -, hexec⟩ | ⟨m, rest, i, -, -, hexec⟩ |
    ⟨m, rest, op, -, -, rfl⟩
  · exact of_silent id rfl
  · exact of_effect (exec_effect hexec)
  · exact of_taken (of_effect (exec_effect hexec))
  · exact of_events id rfl (by simp)

end RequestMove

/-- The transport's answers and CLOSE without reserved bits. -/
def EndsExchange (i : Instr) : Prop :=
  (∃ rx, i = .xferDone rx) ∨ (∃ r, i = .xferFail r) ∨ i = .closeCmd 0

/-- An instruction that leads out of XFER is one of them: every other keeps XFER, or does not run there. -/
theorem effect_leaves_xfer {i : Instr} {s t : State} (h : Effect i s t) (hxfer : s.fsm = .xfer)
    (hleft : t.fsm ≠ .xfer) : EndsExchange i := by
  cases h with
  | refused => exact absurd hxfer hleft
  | ignored => exact absurd hxfer hleft
  | configured => exact absurd hxfer hleft
  | opened hidle => exact nomatch hidle.symm.trans hxfer
  | shut => exact .inr (.inr rfl)
  | readQueued => exact absurd hxfer hleft
  | writeQueued => exact absurd hxfer hleft
  | built hbuild => exact nomatch hbuild.symm.trans hxfer
  | replied rx => exact .inl ⟨rx, rfl⟩
  | failed reason => exact .inr (.inl ⟨reason, rfl⟩)
  | ticked hwait => exact nomatch hwait.symm.trans hxfer

/-- Settles O44: only the frame build requests and enters; a step out of XFER takes an input that ends the
exchange. -/
theorem oneExchangeAtATime : Obligations.OneExchangeAtATime := by
  intro s t hstep
  have hleaves (hxfer : s.fsm = .xfer) (hleft : t.fsm ≠ .xfer) :
      ∃ m rest i, s.inbox = m :: rest ∧ decode m = .ok i ∧ EndsExchange i := by
    rcases step_cases hstep with ⟨-, -, rfl⟩ | ⟨-, hbuild, -⟩ | ⟨m, rest, i, hinbox, hdecode, hexec⟩ |
      ⟨m, rest, op, -, -, rfl⟩
    · exact absurd hxfer hleft
    · exact nomatch hbuild.symm.trans hxfer
    · exact ⟨m, rest, i, hinbox, hdecode, effect_leaves_xfer (exec_effect hexec) hxfer hleft⟩
    · exact absurd hxfer hleft
  cases RequestMove.of_step hstep with
  | requested hbuild hxfer hreq =>
    refine ⟨fun f hf => ⟨hbuild, hxfer, ?_⟩, fun _ _ => ⟨hbuild, hreq⟩, hleaves⟩
    rw [hreq, List.mem_singleton] at hf
    exact Event.xferReq.inj hf
  | quiet hfsm hnone =>
    exact ⟨fun f hf => absurd hf (hnone f), fun hnot hx => absurd (hfsm hx) hnot, hleaves⟩

end Sys2Proof.Machine
end

section
/-! CLOSED is terminal (44_scheduler.md R252, 60_exceptions.md R318, 70_reset_and_hazards.md R340, R348): what
a step can do there. -/
namespace Sys2Proof.Machine

/-- The events a closed block may still emit. -/
def Event.IsWarning (e : Event) : Prop :=
  (∃ op c, e = .cmdError op c) ∨ ∃ c side, e = .rangeWarning c side

/-- In CLOSED a service request fails a check (43_service_queue.md R229). -/
theorem ServiceChecks.refused_of_closed {s : State} (slot : Byte) (hclosed : s.fsm = .closed) :
    ∃ c, firstCause (serviceChecks slot s) = some c := by
  rcases Nat.lt_or_ge 18 slot.toNat with hslot | hslot
  · exact ⟨_, ServiceChecks.indexRange hslot⟩
  · exact ⟨_, ServiceChecks.closed hslot hclosed⟩

/-- `ClosedMove s t`: output registers and settings may be written, commands answered and range warnings
given, and nothing else happens. -/
inductive ClosedMove (s : State) : State → Prop
  | mk (r : State) (evs : List Event) (hwarn : ∀ e ∈ evs, e.IsWarning) :
      ClosedMove s ((s.withRegisters r).answered evs)

/-- A refused command is such a move. -/
theorem ClosedMove.of_refused (s : State) (op : Byte) (c : Cause) : ClosedMove s (s.answered [.cmdError op c]) :=
  .mk s _ (List.forall_mem_singleton.2 (.inl ⟨op, c, rfl⟩))

/-- So is no change at all. -/
theorem ClosedMove.refl (s : State) : ClosedMove s s := by
  have h := ClosedMove.mk (s := s) s [] (fun _ he => nomatch he)
  rwa [answered_nil] at h

/-- An instruction in CLOSED: the scheduler's own are refused, ignored or do not run, and so are the service
requests. -/
theorem exec_of_closed {i : Instr} {s t : State} (h : exec i s = .next t) (hclosed : s.fsm = .closed) :
    ClosedMove s t := by
  have heffect := exec_effect h
  cases heffect with
  | refused _ cause => exact .of_refused s _ cause
  | ignored => exact .refl s
  | configured _ r evs hwarn => exact .mk r evs fun e he => .inr (hwarn e he)
  | opened hidle => exact nomatch hidle.symm.trans hclosed
  | shut hopen => exact absurd hclosed hopen
  | readQueued slot tag =>
    obtain ⟨c, hfails⟩ := ServiceChecks.refused_of_closed slot hclosed
    rw [exec_svcRead, command_refused hfails] at h
    rw [← Host.Outcome.next.inj h]
    exact .of_refused s _ c
  | writeQueued slot tag value =>
    obtain ⟨c, hfails⟩ := ServiceChecks.refused_of_closed slot hclosed
    rw [exec_svcWrite, command_refused ((firstCause_passes (reservedCheck_passes.2 rfl)).trans hfails)] at h
    rw [← Host.Outcome.next.inj h]
    exact .of_refused s _ c
  | built hbuild => exact nomatch hbuild.symm.trans hclosed
  | replied _ hxfer => exact nomatch hxfer.symm.trans hclosed
  | failed _ hxfer => exact nomatch hxfer.symm.trans hclosed
  | ticked hwait => exact nomatch hwait.symm.trans hclosed

/-- A step in CLOSED is such a move but for the input it takes. -/
theorem step_of_closed {s t : State} (h : step s = .next t) (hclosed : s.fsm = .closed) :
    ∃ rest, ClosedMove { s with inbox := rest } t := by
  rcases step_cases h with ⟨-, -, rfl⟩ | ⟨-, hbuild, -⟩ | ⟨m, rest, i, -, -, hexec⟩ |
    ⟨m, rest, op, -, -, rfl⟩
  · exact ⟨t.inbox, .refl t⟩
  · exact nomatch hbuild.symm.trans hclosed
  · exact ⟨rest, exec_of_closed hexec hclosed⟩
  · exact ⟨rest, .of_refused _ op .unknownOpcode⟩

/-- Settles O45: the move of a step in CLOSED leaves all the cycle's state. -/
theorem closedIsTerminal : Obligations.ClosedIsTerminal := by
  intro s t hclosed hstep
  obtain ⟨rest, ⟨r, evs, hwarn⟩⟩ := step_of_closed hstep hclosed
  have hnew : newOuts s ((State.withRegisters { s with inbox := rest } r).answered evs) = evs :=
    newOuts_of_append rfl
  rw [hnew]
  exact ⟨hclosed, rfl, rfl, rfl, rfl, rfl, rfl, rfl, rfl, rfl, rfl, hwarn⟩

end Sys2Proof.Machine
end

section
/-! The rational operand's conversions in whole numbers (30_encoding.md R104, 41_conversion.md R170-R173): a
floor of a quotient of naturals is their division. -/
namespace Sys2Proof.Machine

/-- The code of a quotient of naturals. -/
theorem floor_natCast_div (a b : Nat) : ((a : Rat) / (b : Rat)).floor.toNat = a / b := by
  have h : ((a : Rat) / (b : Rat)).floor = (a : Int) / (b : Int) := Rat.floor_intCast_div_natCast a b
  rw [h]
  rfl

section
variable {num den : Word}

/-- A word that is not negative reads the same signed and unsigned. -/
theorem toInt_of_nonneg (h : 0 ≤ num.toInt) : num.toInt = (num.toNat : Int) := by
  have hmsb : num.msb = false := by rw [← Bool.not_eq_true, BitVec.msb_eq_toInt]; simpa using h
  exact BitVec.toInt_eq_toNat_of_msb hmsb

/-- An operand that is not negative is a quotient of naturals. -/
theorem ratOperand_of_nonneg (h : 0 ≤ num.toInt) :
    ratOperand num den = (num.toNat : Rat) / (den.toNat : Rat) := by
  rw [ratOperand_eq, toInt_of_nonneg h, Int.cast_natCast]

/-- Such an operand compared with a natural number, by cross multiplication. -/
theorem ratOperand_lt_natCast (hden : den ≠ 0) (h : 0 ≤ num.toInt) (k : Nat) :
    ratOperand num den < (k : Rat) ↔ num.toNat < k * den.toNat := by
  have hlt := ratOperand_lt (num := num) hden k
  rw [toInt_of_nonneg h] at hlt
  exact_mod_cast hlt

theorem ratOperand_nonneg (hden : den ≠ 0) : 0 ≤ ratOperand num den ↔ 0 ≤ num.toInt := by
  simpa using not_congr (ratOperand_lt (num := num) hden 0)

/-- The duty code of an operand (R172). -/
theorem convDuty_ratOperand (h : 0 ≤ num.toInt) :
    convDuty (ratOperand num den) = BitVec.ofNat 16 (65535 * num.toNat / den.toNat) := by
  rw [convDuty, ratOperand_of_nonneg h, ← mul_div_assoc, ← floor_natCast_div]
  push_cast
  rfl

/-- One line of the frequency table for an operand: `floor(base / f)` is `(base × den) div num` (R170). -/
theorem divisorOf_ratOperand (h : 0 ≤ num.toInt) (tier base : Nat) :
    divisorOf tier ((base : Rat) / ratOperand num den) =
      BitVec.ofNat 16 (tier + (base * den.toNat / num.toNat &&& 0xFFFC)) := by
  rw [divisorOf, ratOperand_of_nonneg h, div_div_eq_mul_div, ← floor_natCast_div]
  push_cast
  rfl

/-- The divisor of an operand, range by range (R170). -/
theorem convFreq2Div_ratOperand (hden : den ≠ 0) :
    convFreq2Div (ratOperand num den) = BitVec.ofNat 16 (
      if num.toInt < den.toNat then 0
      else if num.toNat < 10 * den.toNat then 3 + (62500 * den.toNat / num.toNat &&& 0xFFFC)
      else if num.toNat < 100 * den.toNat then 2 + (500000 * den.toNat / num.toNat &&& 0xFFFC)
      else if num.toNat < 1000 * den.toNat then 1 + (4000000 * den.toNat / num.toNat &&& 0xFFFC)
      else if num.toNat < 100000 * den.toNat then 32000000 * den.toNat / num.toNat &&& 0xFFFC
      else 0) := by
  have hone : ratOperand num den < 1 ↔ num.toInt < den.toNat := by simpa using ratOperand_lt (num := num) hden 1
  by_cases hlow : num.toInt < den.toNat
  · rw [if_pos hlow, convFreq2Div_outside (.inl (hone.2 hlow))]
    rfl
  have h1 : 1 ≤ ratOperand num den := not_lt.1 (mt hone.1 hlow)
  have hnum : 0 ≤ num.toInt := by omega
  have hlt (k : Nat) := ratOperand_lt_natCast hden hnum k
  have hge (k : Nat) (h : ¬ num.toNat < k * den.toNat) : (k : Rat) ≤ ratOperand num den :=
    not_lt.1 (mt (hlt k).1 h)
  rw [if_neg hlow]
  split_ifs with h10 h100 h1000 h100000
  · rw [(FreqRange.tier3 h1 ((hlt 10).2 h10)).convFreq2Div_eq]
    exact divisorOf_ratOperand hnum 3 62500
  · rw [(FreqRange.tier2 (hge 10 h10) ((hlt 100).2 h100)).convFreq2Div_eq]
    exact divisorOf_ratOperand hnum 2 500000
  · rw [(FreqRange.tier1 (hge 100 h100) ((hlt 1000).2 h1000)).convFreq2Div_eq]
    exact divisorOf_ratOperand hnum 1 4000000
  · rw [(FreqRange.tier0 (hge 1000 h1000) ((hlt 100000).2 h100000)).convFreq2Div_eq,
      ← Nat.zero_add (32000000 * den.toNat / num.toNat &&& 0xFFFC)]
    exact divisorOf_ratOperand hnum 0 32000000
  · exact convFreq2Div_outside (.inr (hge 100000 h100000))

/-- From 10 V on the code is clamped and the warning is HIGH (R173). -/
theorem convDac_high (hden : den ≠ 0) (h : (10 * den.toNat : Int) ≤ num.toInt) :
    convDac (ratOperand num den) = (4095, some .high) :=
  if_pos (not_lt.1 (mt (ratOperand_lt hden 10).1 (not_lt.2 h)))

/-- Below 0 V the code is clamped and the warning is LOW (R173). -/
theorem convDac_low (hden : den ≠ 0) (h : num.toInt < 0) : convDac (ratOperand num den) = (0, some .low) := by
  have hneg : ratOperand num den < 0 := not_le.1 (mt (ratOperand_nonneg hden).1 (not_le.2 h))
  rw [convDac, if_neg (by linarith), if_pos hneg]

/-- In range the code is the scaled floor, without a warning (R173). -/
theorem convDac_ratOperand (hden : den ≠ 0) (h0 : 0 ≤ num.toInt) (h10 : num.toInt < (10 * den.toNat : Int)) :
    convDac (ratOperand num den) = (BitVec.ofNat 16 (4095 * num.toNat / (10 * den.toNat)), none) := by
  have hlo := (ratOperand_nonneg hden).2 h0
  have hhi : ratOperand num den < 10 := (ratOperand_lt hden 10).2 h10
  have hquot : ratOperand num den * 4095 / 10 =
      ((4095 * num.toNat : Nat) : Rat) / ((10 * den.toNat : Nat) : Rat) := by
    rw [ratOperand_of_nonneg h0, div_mul_eq_mul_div, div_div]
    push_cast
    ring
  rw [convDac, if_neg (not_le.2 hhi), if_neg (not_lt.2 hlo), hquot, floor_natCast_div]

end

end Sys2Proof.Machine
end

section
/-! A host command as a list of checks and a pseudocode (45_host_commands.md R280): the checks of the operands,
those of the state, and the two ways the command can end. -/
namespace Sys2Proof.Machine

/-- Checks 2 to 4 of R280, in their order: what the command itself decides. -/
def operandChecks : Instr → List Check
  | .openCmd rsv => [reservedCheck rsv]
  | .closeCmd rsv => [reservedCheck rsv]
  | .setLed rsv _ _ => [reservedCheck rsv]
  | .setDout rsv _ => [reservedCheck rsv]
  | .setPwmDuty rsv k num den =>
    [reservedCheck rsv, indexCheck 3 k, denCheck den, dutyCheck (ratOperand num den)]
  | .setPwmFreq rsv g _ den => [reservedCheck rsv, indexCheck 1 g, denCheck den]
  | .setAout rsv c _ den => [reservedCheck rsv, indexCheck 1 c, denCheck den]
  | .setRs485Baud baud => [baudCheck baud]
  | .setRs485Mode rsv _ _ => [reservedCheck rsv]
  | .setBoardCfg rsv _ _ _ => [reservedCheck rsv]
  | .svcRead slot _ => [indexCheck 18 slot]
  | .svcWrite slot _ prsv _ => [reservedCheck prsv, indexCheck 18 slot]
  | .tick => []
  | .xferDone _ => []
  | .xferFail _ => []
  | .buildStep => []

/-- Checks 5 and 6 of R280, in their order: what the state decides. -/
def stateChecks (s : State) : Instr → List Check
  | .openCmd _ => [(s.fsm != .idle, .badState), openRoomCheck s]
  | .closeCmd _ => [(s.fsm == .closed, .badState)]
  | .svcRead _ _ => [closedCheck s, fullCheck s]
  | .svcWrite _ _ _ _ => [closedCheck s, fullCheck s]
  | _ => []

/-- The checks of a command, in their order. -/
def hostChecks (i : Instr) (s : State) : List Check := operandChecks i ++ stateChecks s i

/-- `i` is the command with pseudocode `act`, guarded by its checks. -/
def RunsAs (i : Instr) (act : State → State) : Prop :=
  ∀ s, exec i s = .next (command (Laws.rowOpcode i) (hostChecks i s) act s)

namespace RunsAs
variable {i : Instr} {act : State → State} {s : State}

/-- The first check that fails is answered, and nothing else happens. -/
theorem refused (h : RunsAs i act) {c : Cause} (hfails : firstCause (hostChecks i s) = some c) :
    exec i s = .next (s.answered [.cmdError (Laws.rowOpcode i) c]) := by
  rw [h s, command_refused hfails]

/-- With no check failing the pseudocode runs. -/
theorem accepted (h : RunsAs i act) (hpass : firstCause (hostChecks i s) = none) : exec i s = .next (act s) := by
  rw [h s, command_runs hpass]

end RunsAs

/-! ### The SET_* commands (R281-R288) -/

theorem runsAs_setLed (rsv ctrl val : BitVec 8) :
    RunsAs (.setLed rsv ctrl val) fun s => { s with ledCtrl := ctrl, ledVal := val } := fun _ => rfl

theorem runsAs_setDout (rsv : BitVec 20) (mask : BitVec 4) :
    RunsAs (.setDout rsv mask) fun s => { s with dout := mask } := fun _ => rfl

theorem runsAs_setPwmDuty (rsv : BitVec 20) (k : BitVec 4) (num den : Word) :
    RunsAs (.setPwmDuty rsv k num den) fun s =>
      { s with dutyCode := s.dutyCode.setIfInBounds k.toNat (convDuty (ratOperand num den)) } := fun _ => rfl

theorem runsAs_setPwmFreq (rsv : BitVec 20) (g : BitVec 4) (num den : Word) :
    RunsAs (.setPwmFreq rsv g num den) fun s =>
      { s with pwmDiv := s.pwmDiv.setIfInBounds g.toNat (convFreq2Div (ratOperand num den)) } := fun _ => rfl

theorem runsAs_setAout (rsv : BitVec 20) (c : BitVec 4) (num den : Word) :
    RunsAs (.setAout rsv c num den) (writeAout c (ratOperand num den)) := fun _ => rfl

theorem runsAs_setRs485Baud (baud : BitVec 24) :
    RunsAs (.setRs485Baud baud) fun s => { s with baudReg := BitVec.ofNat 16 (baud.toNat / 100) } := fun _ => rfl

theorem runsAs_setRs485Mode (rsv : BitVec 20) (stop parity : BitVec 2) :
    RunsAs (.setRs485Mode rsv stop parity) fun s => { s with parity := parity, stop := stop } := fun _ => rfl

theorem runsAs_setBoardCfg (rsv : BitVec 21) (ai2 ai1 term : BitVec 1) :
    RunsAs (.setBoardCfg rsv ai2 ai1 term) fun s => { s with term := term, aiMode := #v[ai1, ai2] } :=
  fun _ => rfl

/-! ### The checks the commands share -/

section
variable {n m : Nat} {rsv : BitVec n} {rest : List Check}

theorem firstCause_reserved (h : rsv ≠ 0) :
    firstCause (reservedCheck rsv :: rest) = some .reservedNonzero :=
  firstCause_fails (reservedCheck_fails.2 h)

theorem firstCause_of_reserved (h : rsv = 0) : firstCause (reservedCheck rsv :: rest) = firstCause rest :=
  firstCause_passes (reservedCheck_passes.2 h)

variable {last : Nat} {k : BitVec m}

theorem firstCause_index (h : rsv = 0) (hk : last < k.toNat) :
    firstCause (reservedCheck rsv :: indexCheck last k :: rest) = some .indexRange :=
  (firstCause_of_reserved h).trans (firstCause_fails (indexCheck_fails.2 hk))

theorem firstCause_of_index (h : rsv = 0) (hk : k.toNat ≤ last) :
    firstCause (reservedCheck rsv :: indexCheck last k :: rest) = firstCause rest :=
  (firstCause_of_reserved h).trans (firstCause_passes (indexCheck_passes.2 hk))

variable {den : Word}

theorem firstCause_den (h : rsv = 0) (hk : k.toNat ≤ last) (hden : den = 0) :
    firstCause (reservedCheck rsv :: indexCheck last k :: denCheck den :: rest) = some .domain :=
  (firstCause_of_index h hk).trans (firstCause_fails (denCheck_fails.2 hden))

theorem firstCause_of_den (h : rsv = 0) (hk : k.toNat ≤ last) (hden : den ≠ 0) :
    firstCause (reservedCheck rsv :: indexCheck last k :: denCheck den :: rest) = firstCause rest :=
  (firstCause_of_index h hk).trans (firstCause_passes (denCheck_passes.2 hden))

end

theorem dutyCheck_passes {num den : Word} (h : den ≠ 0) :
    (dutyCheck (ratOperand num den)).1 = false ↔ 0 ≤ num.toInt ∧ num.toInt ≤ (den.toNat : Int) := by
  rw [← Bool.not_eq_true, dutyCheck_fails h, not_or, not_lt, not_lt]

theorem baudCheck_passes {baud : BitVec 24} :
    (baudCheck baud).1 = false ↔ baud ≠ 0 ∧ baud.toNat % 100 = 0 ∧ baud.toNat / 100 ≤ 65535 := by
  rw [← Bool.not_eq_true, baudCheck_fails, not_or, not_or, not_not, not_lt]

end Sys2Proof.Machine
end

section
/-! The SET_* commands of the output registers, each clause the first check that fails or none
(45_host_commands.md R281-R285). -/
namespace Sys2Proof.Machine

/-- Settles O15: the four checks in their order, and the floor of the duty in whole numbers. -/
theorem setPwmDutyResult : Obligations.SetPwmDutyResult := by
  intro rsv k num den s
  have hruns := runsAs_setPwmDuty rsv k num den
  refine ⟨fun hrsv => hruns.refused (firstCause_reserved hrsv),
    fun hrsv hk => hruns.refused (firstCause_index hrsv hk),
    fun hrsv hk hdomain => hruns.refused ?_, fun hrsv hk hden hlo hhi => ?_⟩
  · by_cases hden : den = 0
    · exact firstCause_den hrsv hk hden
    · exact (firstCause_of_den hrsv hk hden).trans
        (firstCause_fails ((dutyCheck_fails hden).2 (hdomain.resolve_left hden)))
  · rw [hruns.accepted ((firstCause_of_den hrsv hk hden).trans
      (firstCause_passes ((dutyCheck_passes hden).2 ⟨hlo, hhi⟩))), convDuty_ratOperand hlo]

/-- Settles O16: the three checks in their order, and the divisor of the operand range by range. -/
theorem setPwmFreqResult : Obligations.SetPwmFreqResult := by
  intro rsv g num den s
  have hruns := runsAs_setPwmFreq rsv g num den
  refine ⟨fun hrsv => hruns.refused (firstCause_reserved hrsv),
    fun hrsv hg => hruns.refused (firstCause_index hrsv hg),
    fun hrsv hg hden => hruns.refused (firstCause_den hrsv hg hden), fun hrsv hg hden => ?_⟩
  rw [hruns.accepted (firstCause_of_den hrsv hg hden), convFreq2Div_ratOperand hden]

/-- The channel field of a range warning is the low bit of the index (30_encoding.md R108). -/
theorem channel_eq_ofNat (c : BitVec 4) : c.extractLsb' 0 1 = BitVec.ofNat 1 c.toNat := rfl

/-- Settles O17: the three checks in their order, and the clamped code with its warning on each side. -/
theorem setAoutResult : Obligations.SetAoutResult := by
  intro rsv c num den s
  have hruns := runsAs_setAout rsv c num den
  have haccepted (hrsv : rsv = 0) (hc : c.toNat ≤ 1) (hden : den ≠ 0) :=
    hruns.accepted (s := s) (firstCause_of_den hrsv hc hden)
  refine ⟨fun hrsv => hruns.refused (firstCause_reserved hrsv),
    fun hrsv hc => hruns.refused (firstCause_index hrsv hc),
    fun hrsv hc hden => hruns.refused (firstCause_den hrsv hc hden), fun hrsv hc hden hhigh => ?_,
    fun hrsv hc hden hlow => ?_, fun hrsv hc hden hlo hhi => ?_⟩
  · rw [haccepted hrsv hc hden, writeAout_eq, convDac_high hden hhigh, ← channel_eq_ofNat]
    rfl
  · rw [haccepted hrsv hc hden, writeAout_eq, convDac_low hden hlow, ← channel_eq_ofNat]
    rfl
  · rw [haccepted hrsv hc hden, writeAout_eq, convDac_ratOperand hden hlo hhi]
    exact congrArg _ (answered_nil _)

/-- Settles O13: both masks are written, and the frame of the state after carries them (R193). -/
theorem setLedResult : Obligations.SetLedResult := by
  intro rsv ctrl val s
  have hruns := runsAs_setLed rsv ctrl val
  refine ⟨fun hrsv => ⟨_, rfl, hruns.accepted (firstCause_of_reserved hrsv), ?_⟩,
    fun hrsv => hruns.refused (firstCause_reserved hrsv)⟩
  have hout := carriesOutputs_encodeFrame { s with ledCtrl := ctrl, ledVal := val }
  exact ⟨hout.ledCtrl, hout.ledVal⟩

/-- Settles O14: the outputs are written, and the frame of the state after carries them (R194). -/
theorem setDoutResult : Obligations.SetDoutResult := by
  intro rsv mask s
  have hruns := runsAs_setDout rsv mask
  refine ⟨fun hrsv => ⟨_, rfl, hruns.accepted (firstCause_of_reserved hrsv), ?_⟩,
    fun hrsv => hruns.refused (firstCause_reserved hrsv)⟩
  rw [(carriesOutputs_encodeFrame _).dout, BitVec.toNat_setWidth_of_le (by decide)]

end Sys2Proof.Machine
end

section
/-! The SET_* commands of the settings, the derived words they give, and the modes the decoder uses
(45_host_commands.md R286-R288). -/
namespace Sys2Proof.Machine

/-- Settles O19: the register takes the hundredth part, which fits 16 bits. -/
theorem setBaudResult : Obligations.SetBaudResult := by
  intro baud s
  have hruns := runsAs_setRs485Baud baud
  refine ⟨fun hdomain => hruns.refused (firstCause_fails (baudCheck_fails.2 hdomain)),
    fun hne hmod hle => ⟨_, ?_, hruns.accepted (firstCause_passes (baudCheck_passes.2 ⟨hne, hmod, hle⟩))⟩⟩
  rw [BitVec.toNat_ofNat]
  omega

/-- MODE_WORD as a number (10_state.md R41). -/
theorem modeWord_toNat (s : State) :
    (modeWord s).toNat = s.stop.toNat * 32 + s.parity.toNat * 8 + s.par.databits8Code.toNat := by
  rw [modeWord, BitVec.toNat_setWidth_of_le (by decide), toNat_append_add, toNat_append_add]
  omega

/-- Settles O20: both codes are written, and the mode word is read off its fields. -/
theorem setModeResult : Obligations.SetModeResult := by
  intro rsv stop parity s
  have hruns := runsAs_setRs485Mode rsv stop parity
  exact ⟨fun hrsv => ⟨hruns.accepted (firstCause_of_reserved hrsv), modeWord_toNat _⟩,
    fun hrsv => hruns.refused (firstCause_reserved hrsv)⟩

/-- The command's word below its opcode is the board word of its bits (10_state.md R41, R288). -/
theorem encodeWord_setBoardCfg_low : ∀ ai2 ai1 term : BitVec 1,
    (ai2 ++ ai1 ++ term).setWidth 16 = (encodeWord (.setBoardCfg 0 ai2 ai1 term)).extractLsb' 0 16 := by
  decide

/-- A valid reply publishes the analog-input modes of the state that takes it (42_frame_codec.md R206). -/
theorem dispatchReply_snap_aiMode {rx : Frame} (s : State) (h : crcOk rx = true) :
    (dispatchReply rx s).snap.aiMode = s.aiMode := by
  obtain ⟨_, _, _, _, _, hc, -⟩ :=
    complete_frame (echoAddr rx) (rd16le rx 0) (echoErr rx) (published rx s)
  rw [dispatchReply_of_valid s h, emit_snap, hc]
  rfl

/-- Settles O21: the board word repeats the command's bits, and the next valid reply is decoded with the new
modes. -/
theorem setBoardResult : Obligations.SetBoardResult := by
  intro rsv ai2 ai1 term s
  have hruns := runsAs_setBoardCfg rsv ai2 ai1 term
  refine ⟨fun hrsv => ⟨_, hruns.accepted (firstCause_of_reserved hrsv), rfl,
    encodeWord_setBoardCfg_low ai2 ai1 term, fun rx hxfer hcrc => ?_⟩,
    fun hrsv => hruns.refused (firstCause_reserved hrsv)⟩
  refine ⟨_, exec_xferDone_of_xfer rx hxfer, ?_⟩
  rw [schedule_eq]
  exact dispatchReply_snap_aiMode _ hcrc

end Sys2Proof.Machine
end

section
/-! What holds of every host command: a refusal changes nothing (45_host_commands.md R280, 60_exceptions.md
R307), the operands alone decide the ill-formed ones (R103), and the SET_* commands do not look at the state
(R289). -/
namespace Sys2Proof.Machine

/-! ### The SET_* commands and the state (R289) -/

/-- A SET_* command writes output registers and settings and emits events, and nothing else. -/
theorem Effect.of_setCommand {i : Instr} {s t : State} (h : Effect i s t) (hi : isSetCommand i = true) :
    ∃ r evs, t = (s.withRegisters r).answered evs := by
  cases h with
  | refused => exact ⟨s, _, rfl⟩
  | ignored => exact ⟨s, [], (answered_nil s).symm⟩
  | configured _ r evs => exact ⟨r, evs, rfl⟩
  | opened => exact nomatch hi
  | shut => exact nomatch hi
  | readQueued => exact nomatch hi
  | writeQueued => exact nomatch hi
  | built => exact nomatch hi
  | replied => exact nomatch hi
  | failed => exact nomatch hi
  | ticked => exact nomatch hi

/-- `act` neither reads nor writes `s.fsm`. -/
def IgnoresFsm (act : State → State) : Prop :=
  ∀ s f, act { s with fsm := f } = { act s with fsm := f }

theorem writeAout_ignoresFsm (c : BitVec 4) (v : Rat) : IgnoresFsm (writeAout c v) := by
  intro s f
  rw [writeAout_eq, writeAout_eq]
  rfl

/-- The pseudocode of every SET_* command ignores `s.fsm`. -/
theorem setCommand_ignoresFsm {i : Instr} (hi : isSetCommand i = true) :
    ∃ act, RunsAs i act ∧ IgnoresFsm act := by
  cases i with
  | setLed => exact ⟨_, runsAs_setLed _ _ _, fun _ _ => rfl⟩
  | setDout => exact ⟨_, runsAs_setDout _ _, fun _ _ => rfl⟩
  | setPwmDuty => exact ⟨_, runsAs_setPwmDuty _ _ _ _, fun _ _ => rfl⟩
  | setPwmFreq => exact ⟨_, runsAs_setPwmFreq _ _ _ _, fun _ _ => rfl⟩
  | setAout => exact ⟨_, runsAs_setAout _ _ _ _, writeAout_ignoresFsm _ _⟩
  | setRs485Baud => exact ⟨_, runsAs_setRs485Baud _, fun _ _ => rfl⟩
  | setRs485Mode => exact ⟨_, runsAs_setRs485Mode _ _ _, fun _ _ => rfl⟩
  | setBoardCfg => exact ⟨_, runsAs_setBoardCfg _ _ _ _, fun _ _ => rfl⟩
  | _ => exact nomatch hi

/-- A SET_* command has no state check. -/
theorem stateChecks_of_setCommand {i : Instr} (hi : isSetCommand i = true) (s : State) :
    stateChecks s i = [] := by
  cases i with
  | openCmd => exact nomatch hi
  | closeCmd => exact nomatch hi
  | svcRead => exact nomatch hi
  | svcWrite => exact nomatch hi
  | _ => rfl

theorem command_ignoresFsm {act : State → State} (h : IgnoresFsm act) (op : Byte) (checks : List Check) :
    IgnoresFsm (command op checks act) := by
  intro s f
  rcases hcause : firstCause checks with _ | c
  · rw [command_runs hcause, command_runs hcause, h s f]
  · rw [command_refused hcause, command_refused hcause]
    rfl

/-- Settles O23: the checks read the operands only, and the pseudocode ignores `s.fsm`. -/
theorem setCommandsStateIndependent : Obligations.SetCommandsStateIndependent := by
  intro i s hset
  obtain ⟨act, hruns, hignores⟩ := setCommand_ignoresFsm hset
  have hchecks (s : State) : hostChecks i s = operandChecks i := by
    rw [hostChecks, stateChecks_of_setCommand hset, List.append_nil]
  have hexec (s : State) : exec i s = .next (command (Laws.rowOpcode i) (operandChecks i) act s) := by
    rw [hruns s, hchecks s]
  have hfsm (f : Fsm) := (hexec { s with fsm := f }).trans
    (congrArg _ (command_ignoresFsm hignores _ (operandChecks i) s f))
  obtain ⟨r, evs, ht⟩ := (exec_effect (hexec s)).of_setCommand hset
  simp only [ht] at hfsm
  exact ⟨_, (hexec s).trans (congrArg _ ht), rfl, rfl, rfl, rfl, rfl, rfl, rfl, rfl, rfl, rfl, rfl, hfsm⟩

/-! ### Refusal and acceptance -/

/-- No CMD_ERROR stands among the events between `s` and `t`. -/
def NoCmdError (s t : State) : Prop := ∀ op c, Event.cmdError op c ∉ newOuts s t

theorem newOuts_answered (s : State) (evs : List Event) : newOuts s (s.answered evs) = evs :=
  newOuts_of_append rfl

theorem NoCmdError.of_events {s t : State} {evs : List Event} (h : t.outs = s.outs ++ evs)
    (hevs : ∀ op c, Event.cmdError op c ∉ evs) : NoCmdError s t := by
  rwa [NoCmdError, newOuts_of_append h]

theorem NoCmdError.of_silent {s t : State} (h : t.outs = s.outs) : NoCmdError s t :=
  .of_events (h.trans (List.append_nil _).symm) fun _ _ => List.not_mem_nil

theorem enqueueAll_outs (ts : List Task) (s : State) : (enqueueAll ts s).outs = s.outs := by
  induction ts generalizing s with
  | nil => rfl
  | cons t ts ih =>
    have hone : ((enqueue t s).getD s).outs = s.outs := by
      rcases enqueue_cases t s with ⟨-, h⟩ | ⟨-, h⟩ <;> rw [h] <;> rfl
    exact (ih _).trans hone

theorem writeAout_noCmdError (c : BitVec 4) (v : Rat) (s : State) : NoCmdError s (writeAout c v s) := by
  rw [writeAout_eq]
  refine .of_events rfl fun op cause he => ?_
  obtain ⟨_, -, h⟩ := List.mem_map.1 he
  exact nomatch h

/-- OPEN emits nothing after its ENQUEUEs (44_scheduler.md R251). -/
theorem opened_noCmdError {s u : State} (h : u.outs = s.outs) :
    NoCmdError s { u with openRem := 19, openRej := false, fsm := .build } :=
  .of_silent h

/-- CLOSE emits at most the release (44_scheduler.md R252). -/
theorem closed_noCmdError (s : State) :
    NoCmdError s { (if s.fsm = .idle then s else s.emit .xferRelease) with dly := 0, fsm := .closed } := by
  split_ifs
  · exact .of_silent rfl
  · exact .of_events rfl (by simp)

/-- Every host command is a guarded pseudocode, and only the guard answers CMD_ERROR. -/
theorem hostCommand_runsAs {i : Instr} (hi : isHostCommand i = true) :
    ∃ act, RunsAs i act ∧ ∀ s, NoCmdError s (act s) := by
  cases i with
  | openCmd rsv => exact ⟨_, exec_openCmd rsv, fun s => opened_noCmdError (enqueueAll_outs openTasks s)⟩
  | closeCmd => exact ⟨_, fun _ => rfl, closed_noCmdError⟩
  | setLed => exact ⟨_, runsAs_setLed _ _ _, fun _ => .of_silent rfl⟩
  | setDout => exact ⟨_, runsAs_setDout _ _, fun _ => .of_silent rfl⟩
  | setPwmDuty => exact ⟨_, runsAs_setPwmDuty _ _ _ _, fun _ => .of_silent rfl⟩
  | setPwmFreq => exact ⟨_, runsAs_setPwmFreq _ _ _ _, fun _ => .of_silent rfl⟩
  | setAout => exact ⟨_, runsAs_setAout _ _ _ _, writeAout_noCmdError _ _⟩
  | setRs485Baud => exact ⟨_, runsAs_setRs485Baud _, fun _ => .of_silent rfl⟩
  | setRs485Mode => exact ⟨_, runsAs_setRs485Mode _ _ _, fun _ => .of_silent rfl⟩
  | setBoardCfg => exact ⟨_, runsAs_setBoardCfg _ _ _ _, fun _ => .of_silent rfl⟩
  | svcRead slot tag => exact ⟨_, exec_svcRead slot tag, fun s => .of_silent (enqueueAll_outs _ s)⟩
  | svcWrite slot tag prsv value =>
    exact ⟨_, exec_svcWrite slot tag prsv value, fun _ => .of_silent (enqueueAll_outs _ _)⟩
  | _ => exact nomatch hi

/-- The two ends of a host command (R280). -/
theorem hostCommand_cases {i : Instr} (hi : isHostCommand i = true) (s : State) :
    (∃ c, firstCause (hostChecks i s) = some c ∧
      exec i s = .next (s.answered [.cmdError (Laws.rowOpcode i) c])) ∨
    (firstCause (hostChecks i s) = none ∧ ∃ t, exec i s = .next t ∧ NoCmdError s t) := by
  obtain ⟨act, hruns, hquiet⟩ := hostCommand_runsAs hi
  rcases hcause : firstCause (hostChecks i s) with _ | c
  · exact .inr ⟨rfl, _, hruns.accepted hcause, hquiet s⟩
  · exact .inl ⟨c, rfl, hruns.refused hcause⟩

/-- The word of a host command carries the opcode its CMD_ERROR reports. -/
theorem opcodeOf_hostCommand {i : Instr} (hi : isHostCommand i = true) :
    opcodeOf (encodeWord i) = Laws.rowOpcode i := by
  cases i with
  | openCmd => exact Laws.EncodesOpcode.openCmd _
  | closeCmd => exact Laws.EncodesOpcode.closeCmd _
  | setLed => exact Laws.EncodesOpcode.setLed _ _ _
  | setDout => exact Laws.EncodesOpcode.setDout _ _
  | setPwmDuty => exact Laws.EncodesOpcode.setPwmDuty _ _ _ _
  | setPwmFreq => exact Laws.EncodesOpcode.setPwmFreq _ _ _ _
  | setAout => exact Laws.EncodesOpcode.setAout _ _ _ _
  | setRs485Baud => exact Laws.EncodesOpcode.setRs485Baud _
  | setRs485Mode => exact Laws.EncodesOpcode.setRs485Mode _ _ _
  | setBoardCfg => exact Laws.EncodesOpcode.setBoardCfg _ _ _ _
  | svcRead => exact Laws.EncodesOpcode.svcRead _ _
  | svcWrite => exact Laws.EncodesOpcode.svcWrite _ _ _ _
  | _ => exact nomatch hi

/-- Settles O24: the one CMD_ERROR a host command can emit is the answer of a check, which is all it does. -/
theorem refusedCommandChangesNothing : Obligations.RefusedCommandChangesNothing := by
  intro i s hi
  rcases hostCommand_cases hi s with ⟨c, -, hexec⟩ | ⟨-, t, hexec, hquiet⟩
  · refine ⟨_, hexec, fun op cause he => ?_⟩
    rw [newOuts_answered, List.mem_singleton] at he
    obtain ⟨rfl, rfl⟩ := Event.cmdError.inj he
    exact ⟨(opcodeOf_hostCommand hi).symm, rfl⟩
  · exact ⟨t, hexec, fun op cause he => absurd he (hquiet op cause)⟩

/-! ### Ill-formed and well-formed commands (R103, R280) -/

/-- The cause reported is that of one of the checks. -/
theorem exists_mem_of_firstCause {checks : List Check} {c : Cause} (h : firstCause checks = some c) :
    ∃ p ∈ checks, p.2 = c := by
  induction checks with
  | nil => exact nomatch h
  | cons p rest ih =>
    cases hp : p.1 with
    | true => exact ⟨p, List.mem_cons_self, Option.some.inj ((firstCause_fails hp).symm.trans h)⟩
    | false =>
      obtain ⟨q, hq, hc⟩ := ih ((firstCause_passes hp).symm.trans h)
      exact ⟨q, List.mem_cons_of_mem p hq, hc⟩

/-- Of two lists of checks in a row, the second decides when the first passes. -/
theorem firstCause_append (first second : List Check) :
    firstCause (first ++ second) = (firstCause first).or (firstCause second) := by
  induction first with
  | nil => rfl
  | cons p rest ih =>
    cases hp : p.1 with
    | true => rw [List.cons_append, firstCause_fails hp, firstCause_fails hp, Option.some_or]
    | false => rw [List.cons_append, firstCause_passes hp, firstCause_passes hp, ih]

/-- The operand checks report causes of the operands (30_encoding.md R109). -/
theorem operandChecks_causes (i : Instr) :
    ∀ p ∈ operandChecks i, p.2 ∈ [Cause.reservedNonzero, .indexRange, .domain] := by
  cases i <;> simp [operandChecks, reservedCheck, indexCheck, denCheck, dutyCheck, baudCheck]

/-- The state checks report causes of the state (30_encoding.md R109). -/
theorem stateChecks_causes (s : State) (i : Instr) :
    ∀ p ∈ stateChecks s i, p.2 ∈ [Cause.badState, .closed, .queueFull] := by
  cases i <;> simp [stateChecks, openRoomCheck, closedCheck, fullCheck]

theorem dutyOk_iff {num den : Word} (h : den ≠ 0) :
    dutyOk num den = true ↔ (dutyCheck (ratOperand num den)).1 = false := by
  simp only [dutyCheck_passes h, dutyOk, Bool.and_eq_true, decide_eq_true_eq]

/-- An instruction is well formed exactly when its operand checks pass. -/
theorem wellFormed_iff (i : Instr) : i.wellFormed = true ↔ firstCause (operandChecks i) = none := by
  rw [firstCause_eq_none]
  cases i with
  | setPwmDuty rsv k num den =>
    simp only [Instr.wellFormed, denOk, Bool.and_eq_true, beq_iff_eq, bne_iff_ne, decide_eq_true_eq, and_assoc,
      operandChecks, List.forall_mem_cons, reservedCheck_passes, indexCheck_passes, denCheck_passes,
      List.not_mem_nil, false_imp_iff, implies_true, and_true]
    exact and_congr_right fun _ => and_congr_right fun _ => and_congr_right fun hden => dutyOk_iff hden
  | setRs485Baud baud => simp [operandChecks, Instr.wellFormed, baudCheck_passes, baudOk, and_assoc]
  | _ =>
    simp [operandChecks, Instr.wellFormed, reservedCheck_passes, indexCheck_passes, denCheck_passes, denOk,
      and_assoc]

/-- Settles O25: the operand checks come first and are what well-formedness asks. -/
theorem illFormedCommandRefused : Obligations.IllFormedCommandRefused := by
  intro i s hi
  have hchecks : firstCause (hostChecks i s) = (firstCause (operandChecks i)).or (firstCause (stateChecks s i)) :=
    firstCause_append _ _
  refine ⟨fun hill => ?_, fun hwell t op cause ht he => ?_⟩
  · obtain ⟨c, hc⟩ : ∃ c, firstCause (operandChecks i) = some c :=
      Option.ne_none_iff_exists'.1 fun hnone => by simp [(wellFormed_iff i).2 hnone] at hill
    obtain ⟨p, hp, rfl⟩ := exists_mem_of_firstCause hc
    obtain ⟨act, hruns, -⟩ := hostCommand_runsAs hi
    rw [hc, Option.some_or] at hchecks
    rw [opcodeOf_hostCommand hi]
    exact ⟨p.2, operandChecks_causes i p hp, hruns.refused hchecks⟩
  · rw [(wellFormed_iff i).1 hwell, Option.none_or] at hchecks
    rcases hostCommand_cases hi s with ⟨c, hc, hexec⟩ | ⟨-, u, hexec, hquiet⟩
    · obtain rfl := Host.Outcome.next.inj (hexec.symm.trans ht)
      rw [newOuts_answered, List.mem_singleton] at he
      obtain ⟨-, rfl⟩ := Event.cmdError.inj he
      obtain ⟨p, hp, rfl⟩ := exists_mem_of_firstCause (hchecks.symm.trans hc)
      exact stateChecks_causes s i p hp
    · obtain rfl := Host.Outcome.next.inj (hexec.symm.trans ht)
      exact absurd he (hquiet op cause)

end Sys2Proof.Machine
end

section
/-! The reset state (70_reset_and_hazards.md R340, R341): its registers and tables element by element, and why
it meets the invariant, the base case of what every step keeps. -/
namespace Sys2Proof.Machine

/-! ### The elements of the reset state (R341) -/

/-- An array of two zeros holds 0 in each element (10_state.md R36, R37, R40, R49). -/
theorem get_zeroPair {n : Nat} (c : Fin 2) : #v[(0 : BitVec n), 0].get c = 0 :=
  Vector.get_replicate 2 0 c

theorem dutyCode_reset (k : Fin 4) : State.reset.dutyCode.get k = 0 := Vector.get_replicate 4 0 k

theorem dacCode_reset (c : Fin 2) : State.reset.dacCode.get c = 0 := get_zeroPair c

/-- No slot has been read or written yet (10_state.md R43). -/
theorem slotValue_reset (i : SlotIdx) : State.reset.slotValue i = 0xFFFF := Vector.get_replicate 19 0xFFFF i

/-- No frame has been built yet (10_state.md R51). -/
theorem tx_reset (i : Fin 26) : State.reset.tx.get i = 0 := Vector.get_replicate 26 0 i

/-- No channel of the empty snapshot holds a reading (10_state.md R49). -/
theorem Snapshot.zero_channel (c : Fin 2) :
    Snapshot.zero.cnt.get c = 0 ∧ Snapshot.zero.aiRaw.get c = 0 ∧ Snapshot.zero.aiMode.get c = 0 :=
  ⟨get_zeroPair c, get_zeroPair c, get_zeroPair c⟩

/-- Settles O9: the scalars and flags are the values `State.reset` writes, the arrays hold theirs in each
element. -/
theorem resetValues : Obligations.ResetValues := by
  refine ⟨rfl, rfl, rfl, rfl, rfl, dutyCode_reset, ?pwmDiv, dacCode_reset, rfl, rfl, rfl, rfl, ?aiMode,
    slotValue_reset, rfl, rfl, rfl, rfl, rfl, Snapshot.zero_channel, rfl, rfl, tx_reset⟩
  case pwmDiv => exact get_zeroPair
  case aiMode => exact get_zeroPair

/-! ### The invariant at reset -/

/-- `INIT_BAUD_REG` is a legal baud setting (00_scope.md R8, 10_state.md R38, notes/assumptions/12.md). -/
theorem initBaudReg_pos (p : Params) : 1 ≤ p.initBaudReg.toNat := by
  have hlt := p.initBaudPred.isLt
  rw [Params.initBaudReg, BitVec.toNat_ofNat, Nat.mod_eq_of_lt (by omega)]
  omega

/-- Nothing is queued or in flight (10_state.md R45, R47). -/
theorem tasks_reset : State.reset.tasks = [] := tasks_of_clear rfl

/-- Settles O48: the settings hold legal values; there is no task, no event and no delay yet. -/
theorem resetHasInvariant : Obligations.ResetHasInvariant where
  queueFits := Nat.zero_le _
  dacInRange c := by simp [dacCode_reset]
  baudLegal := initBaudReg_pos Config.params
  delayLive := iff_of_false Fsm.noConfusion fun hdly => hdly rfl
  openCounted := by rw [State.OpenCounted, tasks_reset]; rfl
  tagsAreSlots t ht := by simp [tasks_reset] at ht
  idleQuiet _ := ⟨rfl, rfl⟩
  snapQuiet _ := ⟨rfl, fun _ => List.not_mem_nil⟩
  txOutstanding := Fsm.noConfusion

end Sys2Proof.Machine
end
